-- ==== Sys2Proof/Word.lean ====
section
/-! DEFINITION. The 32-bit request word (R60). -/

namespace Sys2Proof

/-- A request word: exactly 32 bits, of one format (R60). -/
abbrev Word := BitVec 32

end Sys2Proof
end

