-- ==== Sys2Proof/Config.lean ====
section
/-! DEFINITION. The implementation parameters of 00_scope.md rule R7: the constants the source fixes, and the parameter
set that a model takes as an argument, with the constraints a set must meet. -/

namespace Sys2Proof

/-- `FRAME_BITS` (R7, the source's). -/
def Config.frameBits : Nat := 16

/-- `THROTTLE_BITS` (R7, the source's). -/
def Config.throttleBits : Nat := 11

/-- `THROTTLE_MAX` (R7, the source's). -/
def Config.throttleMax : Nat := 2047

/-- `RESERVED_THROTTLE_MAX` (R7): informative only, no rule reads it (R101). -/
def Config.reservedThrottleMax : Nat := 47

/-- `NSYM` (R7, the source's). -/
def Config.nsym : Nat := 17

/-- A parameter set of R7 before its constraints are checked: every value of R7 that is not marked as the source's.
`cfgWidth` is `W_CFG`, the width of each configuration operand port and of the register that keeps its value; `thrWidth`
is `W_THR`, the width of the throttle request field (what they change: DEDUCED, log 6, safe at the defaults, unsafe at
another `W_THR`). `usPerS` is the unit conversion `US_PER_S` (DESIGN CHOICE, log 7, safe). -/
structure RawParams where
  cfgWidth : Nat
  thrWidth : Nat
  duty1Num : Nat
  duty1Den : Nat
  duty0Num : Nat
  duty0Den : Nat
  minPhaseTicks : Nat
  durWidth : Nat
  minGapTicks : Nat
  usPerS : Nat
  deriving DecidableEq, Repr

/-- "Constraints the model must check on any parameter set" (R7). The last three conjuncts are what the other rules ask of
a set: a divisor is positive (R9; log 7); the telemetry bit and the throttle field stand below `OP` in the word (R62), and
an accepted period fits the 32 bits of `PERIOD` (R9, R24) (log 6). -/
def RawParams.wf (p : RawParams) : Bool :=
  decide (0 < p.duty1Den) && decide (0 < p.duty0Den) && decide (p.duty1Num < p.duty1Den)
    && decide (p.duty0Num < p.duty0Den) && decide (p.duty0Num * p.duty1Den < p.duty1Num * p.duty0Den)
    && decide (1 ≤ p.minPhaseTicks) && decide (1 ≤ p.minGapTicks) && decide (1 ≤ p.durWidth)
    && decide (p.durWidth ≤ 32) && decide (0 < p.usPerS) && decide (p.thrWidth ≤ 29)
    && decide (p.cfgWidth ≤ 32 ∨ p.durWidth ≤ 31)

/-- A parameter set that meets the constraints of R7: no other can be built. -/
structure Params extends RawParams where
  ok : toRawParams.wf = true
  deriving DecidableEq, Repr

/-- The check of R7: a parameter set that breaks a constraint is turned away. -/
def RawParams.check (p : RawParams) : Option Params :=
  if h : p.wf = true then some { toRawParams := p, ok := h } else none

/-- The defaults of R7 (the duties 3/4 and 3/8 and `DUR_WIDTH` 15 are the spec's general-knowledge passages G1 and
G2). -/
def Params.default : Params where
  cfgWidth := 32
  thrWidth := 16
  duty1Num := 3
  duty1Den := 4
  duty0Num := 3
  duty0Den := 8
  minPhaseTicks := 1
  durWidth := 15
  minGapTicks := 1
  usPerS := 1000000
  ok := by decide

/-- `DUR_MAX = 2^DUR_WIDTH − 1` (R7). -/
def Params.durMax (p : Params) : Nat := 2 ^ p.durWidth - 1

/-- What the last constraint gives; the register write of R88 cites it (`counts_fit`). -/
theorem Params.period_width (p : Params) : p.cfgWidth ≤ 32 ∨ p.durWidth ≤ 31 := by
  have h := p.ok
  simp only [RawParams.wf, Bool.and_eq_true, decide_eq_true_eq] at h
  exact h.2

end Sys2Proof
end

