-- ==== Sys2Proof/Syntax.lean ====
section
/-! DEFINITION. The instructions: one constructor per row of spec/opcode_table.json. A word that is no row of the table
(ILLEGAL, R64) is no instruction: the decoder rejects it by one of the names of `Reserved`. -/

namespace Sys2Proof

/-- The three requests of R61. -/
inductive Instr where
  /-- NOP (R144). -/
  | nop
  /-- CONFIGURE (R80); its operands stand on the ports of R63, not in the word. -/
  | configure
  /-- ENCODE (R140): `thr` is the zero-extended THR field, an unsigned number (R65); `tlm` the TLM bit. -/
  | encode (thr : Nat) (tlm : Bool)
  deriving DecidableEq, Repr

/-- Why a word is a reserved encoding: the three kinds of R68, the second one by operation. -/
inductive Reserved where
  /-- `OP = 11`. -/
  | opThree
  /-- A NOP word with a non-zero bit in `w[29:0]`. -/
  | nopBits
  /-- A CONFIGURE word with a non-zero bit in `w[29:0]`. -/
  | configureBits
  /-- An ENCODE word with a non-zero bit between `OP` and TLM, `w[29:17]` at the default `W_THR`. -/
  | encodeBits
  deriving DecidableEq, Repr

/-- A row of spec/opcode_table.json: the words `w` with `w &&& mask = pattern`. -/
structure Row where
  mnemonic : String
  pattern : Word
  mask : Word
  deriving DecidableEq, Repr

/-- The word belongs to the row. -/
def Row.admits (r : Row) (w : Word) : Bool := w &&& r.mask == r.pattern

end Sys2Proof
end

