-- ==== Sys2Proof/WellFormed.lean ====
section
/-! DEFINITION. Which terms of `Instr` a request word can spell, given the width of the throttle field. -/

namespace Sys2Proof

/-- An ENCODE's throttle operand fits the THR field of `W_THR` bits (R62, R65: 0 .. 65535 at the default). The other
requests carry no operand. -/
def Instr.wf (p : Params) : Instr → Bool
  | .nop => true
  | .configure => true
  | .encode thr _ => decide (thr < 2 ^ p.thrWidth)

end Sys2Proof
end

