-- ==== Sys2Proof/Decode.lean ====
section
/-! DEFINITION. The decoder of R64, total on every 32-bit word; after it the encoder of R62 and R70; the rows of
spec/opcode_table.json; and the decoder as the host calls it. -/

namespace Sys2Proof

/-- The field of `width` bits of `w` whose lowest bit is bit `lo`, read as an unsigned number (R8). -/
def field (w : Word) (lo width : Nat) : Nat := w.toNat / 2 ^ lo % 2 ^ width

/-- `OP = w[31:30]` (R60). -/
def opField (w : Word) : Nat := field w 30 2

/-- `RSV = w[29:0]` of NOP and CONFIGURE (R62). -/
def lowReserved (w : Word) : Nat := field w 0 30

/-- `RSV` of ENCODE: the bits between `OP` and `TLM`, `w[29:17]` at the default `W_THR` (R62; log 6). -/
def encodeReserved (p : Params) (w : Word) : Nat := field w (p.thrWidth + 1) (29 - p.thrWidth)

/-- `TLM`, the bit above the throttle field, `w[16]` at the default `W_THR` (R62; log 6). -/
def tlmField (p : Params) (w : Word) : Bool := w.getLsbD p.thrWidth

/-- `THR`, zero-extended: an unsigned number, the low `W_THR` bits, `w[15:0]` at the default (R62, R65). -/
def thrField (p : Params) (w : Word) : Nat := field w 0 p.thrWidth

/-- The decoder of R64. A word that R64 decodes as ILLEGAL is rejected by the name of the reserved encoding (R68). -/
def decode (p : Params) (w : Word) : Except Reserved Instr :=
  if opField w = 0b00 then
    if lowReserved w = 0 then .ok .nop else .error .nopBits
  else if opField w = 0b01 then
    if lowReserved w = 0 then .ok .configure else .error .configureBits
  else if opField w = 0b10 then
    if encodeReserved p w = 0 then .ok (.encode (thrField p w) (tlmField p w)) else .error .encodeBits
  else .error .opThree

/-- The word of an instruction, as R70 writes it (`tlm << 16` at the default `W_THR`). -/
def encode (p : Params) : Instr → Word
  | .nop => 0x00000000#32
  | .configure => 0x40000000#32
  | .encode thr tlm => 0x80000000#32 ||| (BitVec.ofNat 32 tlm.toNat <<< p.thrWidth) ||| BitVec.ofNat 32 thr

/-- The rows of spec/opcode_table.json, in its order; the table is that of the default `W_THR`. -/
def opcodeRows : List Row :=
  [ { mnemonic := "NOP", pattern := 0x00000000#32, mask := 0xFFFFFFFF#32 },
    { mnemonic := "CONFIGURE", pattern := 0x40000000#32, mask := 0xFFFFFFFF#32 },
    { mnemonic := "ENCODE", pattern := 0x80000000#32, mask := 0xFFFE0000#32 } ]

/-- The row of an instruction. -/
def rowOf : Instr → Row
  | .nop => { mnemonic := "NOP", pattern := 0x00000000#32, mask := 0xFFFFFFFF#32 }
  | .configure => { mnemonic := "CONFIGURE", pattern := 0x40000000#32, mask := 0xFFFFFFFF#32 }
  | .encode _ _ => { mnemonic := "ENCODE", pattern := 0x80000000#32, mask := 0xFFFE0000#32 }

/-- The request word whose low `nbits` bits are `w`, every bit above them 0 (log 17). -/
def tableWord (nbits w : Nat) : Word := BitVec.ofNat 32 (w % 2 ^ nbits)

/-- The instruction the decoder reads from a table word, at the defaults, which the table is written for. Every request is
exactly 32 bits (R60): a longer word is no request (DESIGN CHOICE, log 17, safe). -/
def decodeTableWord (nbits w : Nat) : Option Instr :=
  if nbits ≤ 32 then
    match decode Params.default (tableWord nbits w) with
    | .ok i => some i
    | .error _ => none
  else none

end Sys2Proof
end

