-- ==== Sys2Proof/Machine/State.lean ====
section
/-! DEFINITION. The state of the machine: the architectural registers of one block (10_state.md), the operand ports,
the events the environment presents and the responses it has been handed, and the parameter set. -/

namespace Sys2Proof.Machine

/-- `PHASE` (R20). -/
inductive Phase where
  | unconfigured
  | ready
  deriving DecidableEq, Repr

/-- A symbol `Sym(h, l)`: a pair of natural numbers (R25). That the durations of a buffer handed out are bounded by
`DUR_MAX` is an invariant (DESIGN CHOICE, log 8, safe). -/
structure Symbol where
  high : Nat
  low : Nat
  deriving DecidableEq, Repr

/-- The three configuration operand ports, each `width` bits wide: no other number can stand on one (R9, R63). In a state
the width is the `W_CFG` of its parameter set (R7). -/
structure Ports (width : Nat) where
  resolutionHz : BitVec width
  bitRateHz : BitVec width
  postDelayUs : BitVec width
  deriving DecidableEq, Repr

/-- One request: the request word, presented together with the operand ports (R60). -/
structure Request (width : Nat) where
  word : Word
  ports : Ports width
  deriving DecidableEq, Repr

/-- What the environment presents to the block, one at a time: a request, or a reset (R49, R180). -/
inductive Event (width : Nat) where
  | request (r : Request width)
  | reset
  deriving DecidableEq, Repr

/-- The status of a response (R160); codes 6 and 7 are never produced and have no constructor. -/
inductive Status where
  | ok
  | configurationError
  | invalidThrottle
  | notReady
  | alreadyConfigured
  | illegalRequest
  deriving DecidableEq, Repr

/-- The eight failed checks of CONFIGURE, in check order (R87). -/
inductive CfgReason where
  | zeroResolution
  | zeroBitRate
  | rateExceedsResolution
  | phaseTooShort
  | durationsCollapse
  | durationOverflow
  | gapTooShort
  | gapOverflow
  deriving DecidableEq, Repr

/-- A response (R66): `none` means that the data outputs carry no valid data. -/
structure Response where
  status : Status
  reason : BitVec 4
  frame : Option (BitVec 16)
  symbols : Option (List Symbol)
  deriving DecidableEq, Repr

/-- The architectural state of one block: `PHASE` (R20), the configuration registers (R23) and the fields of the
bit-timing lookup table with `PERIOD` (R24), each of its width at the parameter set `p` (R7, R9). The high duration of
`LUT[2]` is fixed at 0 and is no register. -/
structure Block (p : Params) where
  phase : Phase
  cfgResHz : BitVec p.cfgWidth
  cfgBitRateHz : BitVec p.cfgWidth
  cfgPostDelayUs : BitVec p.cfgWidth
  period : BitVec 32
  t1h : BitVec p.durWidth
  t1l : BitVec p.durWidth
  t0h : BitVec p.durWidth
  t0l : BitVec p.durWidth
  tgap : BitVec p.durWidth
  deriving DecidableEq, Repr

/-- The whole state. `block` is the spec's state. `ports` is what the operand ports carried with the latest request
(log 3). `inbox` is what the environment will present, first one next (log 1), `outbox` the responses handed out, oldest
first (log 2): the block keeps neither (R30). `par` is the parameter set (log 5); it gives registers and ports their
widths. -/
structure State where
  par : Params
  block : Block par
  ports : Ports par.cfgWidth
  inbox : List (Event par.cfgWidth)
  outbox : List Response
  deriving DecidableEq, Repr

/-- The reasons the machine stops with a fault. -/
inductive Fault where
  /-- A read of the lookup table while UNCONFIGURED, which R29 calls a model fault. Raised by `withTable`; safe. By R29
  no request reaches it. -/
  | unspecifiedRead
  /-- A step of an instance that an N-instance system does not have. Raised by `System.stepInstance` only (DESIGN CHOICE,
  log 14); safe. -/
  | noSuchInstance
  deriving DecidableEq, Repr

/-- The reasons the machine has no meaning for an instruction. -/
inductive Refusal where
  /-- The instruction of this mnemonic has no meaning yet. Raised by `exec` only; safe. No arm of `exec` raises it. -/
  | notModelled (mnemonic : String)
  deriving DecidableEq, Repr

/-- The outcome of a step of this machine. -/
abbrev Result := Host.Outcome State Fault Refusal

/-- What the block takes from the inbox. -/
inductive Fetched where
  /-- Nothing is presented. -/
  | idle
  /-- A reset; the state has the event taken. -/
  | reset (s : State)
  /-- A request word; the state has the event taken and the operand ports sampled. -/
  | request (w : Word) (s : State)
  deriving DecidableEq, Repr

/-- The architectural state after a reset (R28): `PHASE` is UNCONFIGURED. The spec leaves every other register
unspecified; the model names 0 (DESIGN CHOICE, log 4, unsafe). -/
def Block.reset (p : Params) : Block p where
  phase := .unconfigured
  cfgResHz := 0#p.cfgWidth
  cfgBitRateHz := 0#p.cfgWidth
  cfgPostDelayUs := 0#p.cfgWidth
  period := 0#32
  t1h := 0#p.durWidth
  t1l := 0#p.durWidth
  t0h := 0#p.durWidth
  t0l := 0#p.durWidth
  tgap := 0#p.durWidth

/-- The machine right after reset: the reset block, the default parameters of R7, nothing presented and nothing answered
yet. The ports are inputs; the model names 0 for them (DESIGN CHOICE, log 3, unsafe). -/
def State.reset : State where
  par := Params.default
  block := Block.reset Params.default
  ports := { resolutionHz := 0, bitRateHz := 0, postDelayUs := 0 }
  inbox := []
  outbox := []

end Sys2Proof.Machine
end

