-- ==== Sys2Proof/Machine/Flags.lean ====
section
/-! DEFINITION. The block has no flags (R22). What it shows of its status: the `ready` output (R20), the status code of a
response (R160), its reason code (R87) and the data strobe (R66). -/

namespace Sys2Proof.Machine

/-- The encoding of `PHASE` (R20). -/
def Phase.code : Phase → BitVec 1
  | .unconfigured => 0#1
  | .ready => 1#1

/-- The `ready` output: `PHASE`, at all times (R20). -/
def ready (s : State) : BitVec 1 := s.block.phase.code

/-- The status code of R160. -/
def Status.code : Status → BitVec 3
  | .ok => 0#3
  | .configurationError => 1#3
  | .invalidThrottle => 2#3
  | .notReady => 3#3
  | .alreadyConfigured => 4#3
  | .illegalRequest => 5#3

/-- The reason code of R87. -/
def CfgReason.code : CfgReason → BitVec 4
  | .zeroResolution => 1#4
  | .zeroBitRate => 2#4
  | .rateExceedsResolution => 3#4
  | .phaseTooShort => 4#4
  | .durationsCollapse => 5#4
  | .durationOverflow => 6#4
  | .gapTooShort => 7#4
  | .gapOverflow => 8#4

/-- The `data_valid` strobe of a response (R66). -/
def Response.dataValid (r : Response) : Bool := r.frame.isSome

end Sys2Proof.Machine
end

