-- ==== Sys2Proof/Machine/Operands.lean ====
section
/-! DEFINITION. The operands of a request: the configuration ports as unsigned numbers (R63, R65) and the accepted
throttle (R100). -/

namespace Sys2Proof.Machine

/-- `R = Port(cfg_resolution_hz)` (R80). -/
abbrev portRes (s : State) : Nat := s.ports.resolutionHz.toNat

/-- `B = Port(cfg_bit_rate_hz)` (R80). -/
abbrev portRate (s : State) : Nat := s.ports.bitRateHz.toNat

/-- `U = Port(cfg_post_delay_us)` (R80). -/
abbrev portDelay (s : State) : Nat := s.ports.postDelayUs.toNat

/-- The throttle check of R143: `thr > THROTTLE_MAX` is out of range. The telemetry bit plays no part. -/
def throttleOutOfRange (thr : Nat) : Bool := decide (Config.throttleMax < thr)

/-- The 11-bit throttle of an accepted command (R100). Applied only to `thr ≤ THROTTLE_MAX`, which fits. -/
def throttleOf (thr : Nat) : BitVec 11 := BitVec.ofNat 11 thr

end Sys2Proof.Machine
end

