-- ==== Sys2Proof/Machine/Ops.lean ====
section
/-! DEFINITION. The named operations over the state: taking the next event, answering a request, raising an error (the
block's only form of exception, R164), reading and writing the registers, and the reset. The updates of the state are
abbreviations, because the types of the other fields depend on `par`, which none of them changes. -/

namespace Sys2Proof.Machine

/-- The state with the first event taken from the inbox. -/
abbrev takeEvent (s : State) (rest : List (Event s.par.cfgWidth)) : State := { s with inbox := rest }

/-- The state with a request taken and its operand ports sampled, in the same step as its word (R63). -/
abbrev takeRequest (s : State) (p : Ports s.par.cfgWidth) (rest : List (Event s.par.cfgWidth)) : State :=
  { s with inbox := rest, ports := p }

/-- What the block takes next: the first event in the order of R49. -/
def fetch (s : State) : Fetched :=
  match s.inbox with
  | [] => .idle
  | .reset :: rest => .reset (takeEvent s rest)
  | .request r :: rest => .request r.word (takeRequest s r.ports rest)

/-- Present a request word to the block, ahead of whatever else is presented, with the operand ports as they stand. -/
abbrev present (w : Word) (s : State) : State :=
  { s with inbox := .request { word := w, ports := s.ports } :: s.inbox }

/-- Hand a response to the caller: it joins the callers' record after the responses handed out before it (R47). -/
abbrev handOut (r : Response) (s : State) : State := { s with outbox := s.outbox ++ [r] }

/-- `respond(status, reason, frame, symbols)` of R10: the one response of the step (R66). -/
def respond (st : Status) (reason : BitVec 4) (frame : Option (BitVec 16)) (symbols : Option (List Symbol))
    (s : State) : Result :=
  .next (handOut { status := st, reason := reason, frame := frame, symbols := symbols } s)

/-- `raise E(reason)` of R10: a response without data, no state write, and the step ends. Nothing traps and nothing is
saved (R164), so there is no return from it either (R165). -/
def raise (st : Status) (reason : BitVec 4) (s : State) : Result := respond st reason none none s

/-- `LUT[k]` of R24: entry 0 the logical-0 symbol, entry 1 the logical-1 symbol, entry 2 the reset symbol. -/
def Block.lut {p : Params} (b : Block p) : Fin 3 → Symbol
  | 0 => { high := b.t0h.toNat, low := b.t0l.toNat }
  | 1 => { high := b.t1h.toNat, low := b.t1l.toNat }
  | 2 => { high := 0, low := b.tgap.toNat }

/-- Read the lookup table: a read while UNCONFIGURED is a model fault (R29). -/
def withTable (s : State) (k : (Fin 3 → Symbol) → Result) : Result :=
  match s.block.phase with
  | .unconfigured => .fault .unspecifiedRead
  | .ready => k s.block.lut

/-- A reset puts the architectural state at its reset value and produces no response (R180). -/
abbrev clearBlock (s : State) : State := { s with block := Block.reset s.par }

end Sys2Proof.Machine
end

