-- ==== Sys2Proof/Machine/Timing.lean ====
section
/-! DEFINITION. The sub-computations of CONFIGURE (R83 to R86), its checks in their order (R87) and its register
write (R88). Every quantity is a natural number, computed exactly (R9). -/

namespace Sys2Proof.Machine

/-- `P = R div B` (R83). -/
def periodTicks (res rate : Nat) : Nat := res / rate

/-- The high count of R84 and R85: `(P * NUM) div DEN`. -/
def highTicks (period num den : Nat) : Nat := period * num / den

/-- `TGAP = (R * U) div US_PER_S` (R86). -/
def gapTicks (p : Params) (res delay : Nat) : Nat := res * delay / p.usPerS

/-- The tick counts CONFIGURE computes before it writes them. -/
structure Timing where
  period : Nat
  t1h : Nat
  t1l : Nat
  t0h : Nat
  t0l : Nat
  tgap : Nat
  deriving DecidableEq, Repr

/-- The counts of R83 to R86 for operands `R`, `B`, `U`. Used only past the checks `R ≠ 0`, `B ≠ 0`, `B ≤ R`. -/
def timingOf (p : Params) (res rate delay : Nat) : Timing where
  period := periodTicks res rate
  t1h := highTicks (periodTicks res rate) p.duty1Num p.duty1Den
  t1l := periodTicks res rate - highTicks (periodTicks res rate) p.duty1Num p.duty1Den
  t0h := highTicks (periodTicks res rate) p.duty0Num p.duty0Den
  t0l := periodTicks res rate - highTicks (periodTicks res rate) p.duty0Num p.duty0Den
  tgap := gapTicks p res delay

/-- `min(t1h, t1l, t0h, t0l)` (R80). -/
def Timing.shortest (t : Timing) : Nat := min (min t.t1h t.t1l) (min t.t0h t.t0l)

/-- `max(t1h, t1l, t0h, t0l)` (R80). -/
def Timing.longest (t : Timing) : Nat := max (max t.t1h t.t1l) (max t.t0h t.t0l)

/-- Checks 4 to 8 of R87 on the computed counts, in their order. -/
def timingFailure (p : Params) (t : Timing) : Option CfgReason :=
  if t.shortest < p.minPhaseTicks then some .phaseTooShort
  else if t.t1h ≤ t.t0h then some .durationsCollapse
  else if p.durMax < t.longest then some .durationOverflow
  else if t.tgap < p.minGapTicks then some .gapTooShort
  else if p.durMax < t.tgap then some .gapOverflow
  else none

/-- The first check of R87 that holds; the later ones are not evaluated. -/
def firstFailure (p : Params) (res rate delay : Nat) : Option CfgReason :=
  if res = 0 then some .zeroResolution
  else if rate = 0 then some .zeroBitRate
  else if res < rate then some .rateExceedsResolution
  else timingFailure p (timingOf p res rate delay)

/-- "A value is written to one only after the rules have shown it fits" (R9): when no check of R87 holds, every count fits
its register. -/
theorem counts_fit {p : Params} {res rate delay : Nat} (hr : res < 2 ^ p.cfgWidth)
    (h : firstFailure p res rate delay = none) :
    (timingOf p res rate delay).period < 2 ^ 32
      ∧ (timingOf p res rate delay).t1h < 2 ^ p.durWidth ∧ (timingOf p res rate delay).t1l < 2 ^ p.durWidth
      ∧ (timingOf p res rate delay).t0h < 2 ^ p.durWidth ∧ (timingOf p res rate delay).t0l < 2 ^ p.durWidth
      ∧ (timingOf p res rate delay).tgap < 2 ^ p.durWidth := by
  have hle : (timingOf p res rate delay).period ≤ res := Nat.div_le_self _ _
  have hsum : (timingOf p res rate delay).period
      ≤ (timingOf p res rate delay).t1h + (timingOf p res rate delay).t1l := by
    simp only [timingOf]
    omega
  have ht : timingFailure p (timingOf p res rate delay) = none := by
    unfold firstFailure at h
    split_ifs at h
    exact h
  generalize timingOf p res rate delay = t at *
  have hmax : t.longest ≤ p.durMax ∧ t.tgap ≤ p.durMax := by
    unfold timingFailure at ht
    split_ifs at ht
    omega
  have hpos : 0 < 2 ^ p.durWidth := Nat.two_pow_pos _
  have hper : t.period < 2 ^ 32 := by
    rcases p.period_width with hw | hw
    · exact lt_of_le_of_lt hle (lt_of_lt_of_le hr (Nat.pow_le_pow_right (by norm_num) hw))
    · have : 2 ^ p.durWidth ≤ 2 ^ 31 := Nat.pow_le_pow_right (by norm_num) hw
      simp only [Timing.longest, Params.durMax] at hmax
      omega
  simp only [Timing.longest, Params.durMax] at hmax
  omega

/-- The registers after the write of R88: the operands, the counts, and `PHASE` READY. Each count is written with the proof
that it fits; none is truncated (R9). -/
def configuredBlock (p : Params) (q : Ports p.cfgWidth)
    (h : firstFailure p q.resolutionHz.toNat q.bitRateHz.toNat q.postDelayUs.toNat = none) : Block p :=
  let t := timingOf p q.resolutionHz.toNat q.bitRateHz.toNat q.postDelayUs.toNat
  have fit := counts_fit q.resolutionHz.isLt h
  { phase := .ready
    cfgResHz := q.resolutionHz
    cfgBitRateHz := q.bitRateHz
    cfgPostDelayUs := q.postDelayUs
    period := BitVec.ofNatLT t.period fit.1
    t1h := BitVec.ofNatLT t.t1h fit.2.1
    t1l := BitVec.ofNatLT t.t1l fit.2.2.1
    t0h := BitVec.ofNatLT t.t0h fit.2.2.2.1
    t0l := BitVec.ofNatLT t.t0l fit.2.2.2.2.1
    tgap := BitVec.ofNatLT t.tgap fit.2.2.2.2.2 }

/-- The register write of R88, made only when no check of R87 holds for the operands on the ports. -/
abbrev writeConfig (s : State) (h : firstFailure s.par (portRes s) (portRate s) (portDelay s) = none) : State :=
  { s with block := configuredBlock s.par s.ports h }

end Sys2Proof.Machine
end

