-- ==== Sys2Proof/Machine/Configure.lean ====
section
/-! DEFINITION. CONFIGURE (40_configure.md R80). -/

namespace Sys2Proof.Machine

/-- CONFIGURE: ALREADY_CONFIGURED while READY (R90); else the first failing check of R87 (R89); else the register write
and OK (R88). -/
def execConfigure (s : State) : Result :=
  match s.block.phase with
  | .ready => raise .alreadyConfigured 0#4 s
  | .unconfigured =>
    match h : firstFailure s.par (portRes s) (portRate s) (portDelay s) with
    | some e => raise .configurationError e.code s
    | none => respond .ok 0#4 none none (writeConfig s h)

end Sys2Proof.Machine
end

