-- ==== Sys2Proof/Machine/Frame.lean ====
section
/-! DEFINITION. The frame assembler and the XOR-fold checksum unit (41_frame_checksum.md). They read no state. -/

namespace Sys2Proof.Machine

/-- `payload = (throttle << 1) or telemetry_request` (R102). -/
def payloadOf (throttle : BitVec 11) (tlm : Bool) : BitVec 12 :=
  (throttle.setWidth 12 <<< 1) ||| (BitVec.ofBool tlm).setWidth 12

/-- `csum(p) = p[11:8] xor p[7:4] xor p[3:0]` (R103; normative as written, log 15). By it a flip of bits j, j + 4 and j + 8
together flips checksum bit j, against one sentence of R108 (DEDUCED, log 12). -/
def csum (p : BitVec 12) : BitVec 4 := p.extractLsb' 8 4 ^^^ p.extractLsb' 4 4 ^^^ p.extractLsb' 0 4

/-- `frame = (payload << 4) or csum(payload)` (R104). -/
def frameOfPayload (p : BitVec 12) : BitVec 16 := (p.setWidth 16 <<< 4) ||| (csum p).setWidth 16

/-- The frame of an accepted command (R102 to R104). -/
def frameOf (throttle : BitVec 11) (tlm : Bool) : BitVec 16 := frameOfPayload (payloadOf throttle tlm)

/-- The frame check of R105: `F[3:0] = csum(F[15:4])`. -/
def wellFormedFrame (F : BitVec 16) : Bool := F.extractLsb' 0 4 == csum (F.extractLsb' 4 12)

end Sys2Proof.Machine
end

