-- ==== Sys2Proof/Machine/Mapper.lean ====
section
/-! DEFINITION. The bit-timing lookup and the symbol mapper (42_symbol_mapper.md), and the inverse mapping of R126, a
test-side function that the block never computes (log 16). -/

namespace Sys2Proof.Machine

/-- `bitsym(b) = LUT[b]` (R120). -/
def bitsym (lut : Fin 3 → Symbol) (b : Bool) : Symbol := lut (if b then 1 else 0)

/-- The symbol buffer of a frame: `symbols[i] = bitsym(F[15 - i])` for i in 0 .. 15 (R121), then `symbols[16] = LUT[2]`
(R122). -/
def symbolsOf (lut : Fin 3 → Symbol) (F : BitVec 16) : List Symbol :=
  (List.range 16).map (fun i => bitsym lut (F.getLsbD (15 - i))) ++ [lut 2]

/-- `bit_of(Sym(h, l))` of R126; `none` where R126 says "undefined otherwise" (U13). -/
def bitOf (lut : Fin 3 → Symbol) (y : Symbol) : Option Bool :=
  if y.high = (lut 1).high then some true
  else if y.high = (lut 0).high then some false
  else none

/-- The bits of the first `n` symbols, most significant first, as a number; `none` at a symbol that carries no bit. -/
def bitsToNat (lut : Fin 3 → Symbol) : Nat → List Symbol → Nat → Option Nat
  | 0, _, acc => some acc
  | _ + 1, [], _ => none
  | n + 1, y :: ys, acc =>
    match bitOf lut y with
    | none => none
    | some b => bitsToNat lut n ys (2 * acc + b.toNat)

/-- The frame a buffer determines, given the table (R126). -/
def frameOfSymbols (lut : Fin 3 → Symbol) (ss : List Symbol) : Option (BitVec 16) :=
  (bitsToNat lut 16 ss 0).map (BitVec.ofNat 16)

end Sys2Proof.Machine
end

