-- ==== Sys2Proof/Machine/Encode.lean ====
section
/-! DEFINITION. ENCODE (43_encode.md R140). -/

namespace Sys2Proof.Machine

/-- The answer to an accepted command: OK with the frame and its symbol buffer (R140). -/
def answerFrame (F : BitVec 16) (lut : Fin 3 → Symbol) (s : State) : Result :=
  respond .ok 0#4 (some F) (some (symbolsOf lut F)) s

/-- ENCODE: NOT_READY while UNCONFIGURED, then INVALID_THROTTLE, else the frame and its symbols (R140). It writes no
register (R142). -/
def execEncode (thr : Nat) (tlm : Bool) (s : State) : Result :=
  match s.block.phase with
  | .unconfigured => raise .notReady 0#4 s
  | .ready =>
    if throttleOutOfRange thr then raise .invalidThrottle 0#4 s
    else withTable s (fun lut => answerFrame (frameOf (throttleOf thr) tlm) lut s)

end Sys2Proof.Machine
end

