-- ==== Sys2Proof/Machine/Nop.lean ====
section
/-! DEFINITION. NOP (43_encode.md R144). -/

namespace Sys2Proof.Machine

/-- NOP: `respond(OK, 0, none, none)`, in either phase (R144). -/
def execNop (s : State) : Result := respond .ok 0#4 none none s

end Sys2Proof.Machine
end

