-- ==== Sys2Proof/Machine/Illegal.lean ====
section
/-! DEFINITION. The answer to a reserved request word (43_encode.md R145). -/

namespace Sys2Proof.Machine

/-- ILLEGAL: `respond(ILLEGAL_REQUEST, 0, none, none)`, in either phase; no register is written (R145). -/
def execIllegal (s : State) : Result := raise .illegalRequest 0#4 s

end Sys2Proof.Machine
end

