-- ==== Sys2Proof/Machine/ResetEvent.lean ====
section
/-! DEFINITION. The reset event (70_reset_and_hazards.md R180) and the idle step. -/

namespace Sys2Proof.Machine

/-- RESET: the architectural state goes to its reset value; no response; the buffers handed out stay (R180, R183). -/
def execReset (s : State) : Result := .next (clearBlock s)

/-- Nothing is presented: the block "does nothing between requests and holds its state until reset" (R173; DEDUCED,
log 9, safe). -/
def execIdle (s : State) : Result := .next s

end Sys2Proof.Machine
end

