-- ==== Sys2Proof/Machine/Step.lean ====
section
/-! DEFINITION. One step of the block: it takes the first event presented and answers it, as one indivisible event
(R45). -/

namespace Sys2Proof.Machine

/-- Answer a request word: an ILLEGAL word outranks every other check (R166); any other word runs its instruction. -/
def serve (w : Word) (s : State) : Host.Outcome State Fault Refusal :=
  match decode s.par w with
  | .ok i => exec i s
  | .error _ => execIllegal s

/-- One step. -/
def step (s : State) : Host.Outcome State Fault Refusal :=
  match fetch s with
  | .idle => execIdle s
  | .reset s' => execReset s'
  | .request w s' => serve w s'

/-- The state in which the request word whose low `nbits` bits are `w` is presented next, with the operand ports as they
stand (log 11). -/
def State.withFetchWord (s : State) (nbits w : Nat) : State := present (tableWord nbits w) s

end Sys2Proof.Machine
end

