-- ==== Sys2Proof/Machine/System.lean ====
section
/-! DEFINITION. A system of independent instances, one per logical channel (60_exceptions.md R171). -/

namespace Sys2Proof.Machine

/-- N instances, each with a state of its own; nothing is shared (R171; log 14). -/
abbrev System := List State

/-- The outcome of a step of a system. -/
abbrev SystemResult := Host.Outcome System Fault Refusal

/-- Instance `n` of the system takes its step; an instance the system does not have is a fault (DESIGN
CHOICE, log 14, safe). -/
def System.stepInstance (n : Nat) (sys : System) : SystemResult :=
  match sys[n]? with
  | none => .fault .noSuchInstance
  | some s =>
    match step s with
    | .next t => .next (sys.set n t)
    | .fault f => .fault f
    | .refused r => .refused r

/-- Present an event to instance `n`, after whatever is presented to it already: `E<n>: <request or RESET>` of R70. The
instance must be one the system has: the spec does not say what presenting to a missing instance does, and the model's
choice is that there is no such event (DESIGN CHOICE, log 14, safe). -/
def System.presentTo (sys : System) (n : Fin sys.length) (e : Event (sys.get n).par.cfgWidth) : System :=
  let s := sys.get n
  sys.set n { s with inbox := s.inbox ++ [e] }

end Sys2Proof.Machine
end

