-- ==== Sys2Proof/Machine/Waveform.lean ====
section
/-! DEFINITION. What a symbol means to its consumer (R127): the line levels, tick by tick. The block drives no line; these
functions are the meaning of its output (log 16). -/

namespace Sys2Proof.Machine

/-- How long a symbol lasts, in ticks (R124). -/
def Symbol.ticks (y : Symbol) : Nat := y.high + y.low

/-- How long a buffer lasts, in ticks (R127). -/
def bufferTicks (ss : List Symbol) : Nat := (ss.map Symbol.ticks).sum

/-- The line level during each tick of a symbol: high for `high` ticks, then low for `low` ticks (R127). -/
def Symbol.levels (y : Symbol) : List Bool := List.replicate y.high true ++ List.replicate y.low false

/-- The line level during each tick of a buffer, its symbols in order (R127). -/
def lineLevels (ss : List Symbol) : List Bool := ss.flatMap Symbol.levels

end Sys2Proof.Machine
end

