-- ==== Sys2Proof/Safety.lean ====
section
/-! DEFINITION. What counts as a good state and a good response, in the terms the claims use: the acceptable operands of
CONFIGURE (R87), the invariant of a READY block (R27), the form of a response (R66) and of a symbol buffer (R121 to
R123). -/

namespace Sys2Proof.Machine

/-- No check of R87 holds for the operands `R`, `B`, `U` at the parameters `p`. -/
abbrev Acceptable (p : Params) (R B U : Nat) : Prop :=
  0 < R ∧ 0 < B ∧ B ≤ R
    ∧ (∀ d ∈ [R / B * p.duty1Num / p.duty1Den, R / B - R / B * p.duty1Num / p.duty1Den,
              R / B * p.duty0Num / p.duty0Den, R / B - R / B * p.duty0Num / p.duty0Den],
        p.minPhaseTicks ≤ d ∧ d ≤ p.durMax)
    ∧ R / B * p.duty0Num / p.duty0Den < R / B * p.duty1Num / p.duty1Den
    ∧ p.minGapTicks ≤ R * U / p.usPerS ∧ R * U / p.usPerS ≤ p.durMax

/-- No check of R87 holds for the operands on the ports (R63). -/
abbrev AcceptablePorts (p : Params) (q : Ports p.cfgWidth) : Prop :=
  Acceptable p q.resolutionHz.toNat q.bitRateHz.toNat q.postDelayUs.toNat

/-- `t` has the registers and the parameters of `s`; only ports, requests presented and responses handed out may differ. -/
abbrev KeepsRegisters (s t : State) : Prop :=
  ∃ (q : Ports s.par.cfgWidth) (n : List (Event s.par.cfgWidth)) (o : List Response),
    t = { s with ports := q, inbox := n, outbox := o }

/-- The four bullets of R27. -/
abbrev TableOk (p : Params) (b : Block p) : Prop :=
  b.t1h.toNat + b.t1l.toNat = b.period.toNat ∧ b.t0h.toNat + b.t0l.toNat = b.period.toNat
    ∧ b.t0h.toNat < b.t1h.toNat
    ∧ (∀ d ∈ [b.t1h.toNat, b.t1l.toNat, b.t0h.toNat, b.t0l.toNat], p.minPhaseTicks ≤ d ∧ d ≤ p.durMax)
    ∧ p.minGapTicks ≤ b.tgap.toNat ∧ b.tgap.toNat ≤ p.durMax

/-- The table is the one CONFIGURE computes from the configuration registers (R83 to R86), whose contents are legal
(R23, R87). -/
abbrev TableFromConfig (p : Params) (b : Block p) : Prop :=
  Acceptable p b.cfgResHz.toNat b.cfgBitRateHz.toNat b.cfgPostDelayUs.toNat
    ∧ b.period.toNat = b.cfgResHz.toNat / b.cfgBitRateHz.toNat
    ∧ b.t1h.toNat = b.period.toNat * p.duty1Num / p.duty1Den
    ∧ b.t0h.toNat = b.period.toNat * p.duty0Num / p.duty0Den
    ∧ b.tgap.toNat = b.cfgResHz.toNat * b.cfgPostDelayUs.toNat / p.usPerS

/-- A well-formed frame and its buffer: 17 symbols; the 16 data symbols carry the frame most significant bit first, with
one constant period and the longer high phase for a 1; then the reset symbol (R105, R121 to R125). -/
def BufferOk (p : Params) (F : BitVec 16) (ss : List Symbol) : Prop :=
  wellFormedFrame F = true ∧ ss.length = 17
    ∧ ∃ P h1 h0 gap : Nat, h0 < h1 ∧ h1 < P
      ∧ (∀ d ∈ [h1, P - h1, h0, P - h0], p.minPhaseTicks ≤ d ∧ d ≤ p.durMax)
      ∧ p.minGapTicks ≤ gap ∧ gap ≤ p.durMax
      ∧ (∀ i < 16, ss[i]? = some (if F.getLsbD (15 - i) then { high := h1, low := P - h1 }
                                  else { high := h0, low := P - h0 }))
      ∧ ss[16]? = some { high := 0, low := gap }

/-- The form of a response (R66): a reason exactly with CONFIGURATION_ERROR and at most 8; a frame exactly when there
are symbols, and only with OK; and then a good buffer. -/
def ResponseOk (p : Params) (r : Response) : Prop :=
  (r.reason ≠ 0#4 ↔ r.status = .configurationError) ∧ r.reason.toNat ≤ 8
    ∧ (r.frame = none ↔ r.symbols = none)
    ∧ (r.status ≠ .ok → r.frame = none)
    ∧ (∀ F ss, r.frame = some F → r.symbols = some ss → BufferOk p F ss)

/-- CONFIGURE answers CONFIGURATION_ERROR with this reason and no data, and writes no register (R89). -/
abbrev AnswersReason (s : State) (reason : BitVec 4) : Prop :=
  exec .configure s
    = .next { s with
        outbox := s.outbox ++ [{ status := .configurationError, reason := reason, frame := none, symbols := none }] }

/-- The invariant of the machine: while READY the table is the configuration's and meets R27; every response handed out has
the form of R66. (That registers and ports hold numbers of their widths, R9, is in their types.) -/
structure Inv (s : State) : Prop where
  config : s.block.phase = .ready → TableFromConfig s.par s.block
  table : s.block.phase = .ready → TableOk s.par s.block
  responses : ∀ r ∈ s.outbox, ResponseOk s.par r

/-- A safe run: `n` steps from `s` reach a state and never stop (R187). -/
def SafeRun (n : Nat) (s : State) : Prop := ∃ t : State, Host.Core.run Sys2Proof.core n s = .next t

end Sys2Proof.Machine
end

