-- ==== Sys2Proof/Certificates/Slice0/Obligations.lean ====
section
/-! DEFINITION. The statements for the provers. A clause that rests on a choice the spec marks as its own (a row D<n> of
92_eei_decisions.md) or on a log entry says so in its docstring. -/

open Sys2Proof Sys2Proof.Machine

/-! ### Decoding and encoding -/

/-- Words written out in R72 decode, at the default parameters, to the requests R72 gives them; the reserved ones are
rejected by name. The encoding is the spec's own decision D3, D17. -/
def Obligations.ExampleWordsDecode : Prop :=
  decode Params.default 0x00000000#32 = .ok .nop ∧ decode Params.default 0x40000000#32 = .ok .configure
    ∧ decode Params.default 0x80000000#32 = .ok (.encode 0 false)
    ∧ decode Params.default 0x800003E8#32 = .ok (.encode 1000 false)
    ∧ decode Params.default 0x800107FF#32 = .ok (.encode 2047 true)
    ∧ decode Params.default 0x8000FFFF#32 = .ok (.encode 65535 false)
    ∧ decode Params.default 0x80020000#32 = .error .encodeBits
    ∧ decode Params.default 0xC0000000#32 = .error .opThree
    ∧ decode Params.default 0x00000001#32 = .error .nopBits
    ∧ decode Params.default 0x40000001#32 = .error .configureBits

/-- Decoding the word of any well-formed instruction gives it back, for every parameter set and with every operand at every
value the fields admit (R62, R64; `W_THR` as an argument: log 6). -/
def Obligations.DecodeOfEncodeIsIdentity : Prop :=
  ∀ (p : Params) (i : Instr), i.wf p = true → decode p (encode p i) = .ok i

/-- A word that decodes to an instruction is the word of that instruction, which is well-formed: every instruction has one
word only (R68: "no no-op aliases other than the one NOP word"). -/
def Obligations.EncodeOfDecodeIsIdentity : Prop :=
  ∀ (p : Params) (w : Word) (i : Instr), decode p w = .ok i → i.wf p = true ∧ encode p i = w

/-- The decoder reads exactly the rows of the opcode table, match and mask; for every `W_THR`, THR is the low `W_THR` bits,
TLM the bit above them, and the bits between TLM and OP are zero (log 6); at `W_THR = 16` that is the table's mask. -/
def Obligations.DecodeFollowsOpcodeTable : Prop :=
  ∀ (p : Params) (w : Word),
    (decode p w = .ok .nop ↔ w &&& 0xFFFFFFFF#32 = 0x00000000#32)
    ∧ (decode p w = .ok .configure ↔ w &&& 0xFFFFFFFF#32 = 0x40000000#32)
    ∧ ∀ (thr : Nat) (tlm : Bool),
        (decode p w = .ok (.encode thr tlm)
          ↔ w.toNat / 2 ^ 30 = 2 ∧ w.toNat % 2 ^ 30 / 2 ^ (p.thrWidth + 1) = 0
            ∧ thr = w.toNat % 2 ^ p.thrWidth ∧ tlm = w.getLsbD p.thrWidth)
        ∧ (p.thrWidth = 16 →
          (decode p w = .ok (.encode thr tlm)
            ↔ w &&& 0xFFFE0000#32 = 0x80000000#32 ∧ thr = w.toNat % 65536 ∧ tlm = w.getLsbD 16))

/-- The decoder rejects exactly the reserved encodings of R68 (the spec's own decision D17): `OP = 11`; a non-zero bit in
`w[29:0]` of a NOP or CONFIGURE word; a non-zero reserved bit of an ENCODE word, in `w[29:W_THR + 1]` (log 6), which is
`w[29:17]` at `W_THR = 16`. -/
def Obligations.ReservedWordsAreRejected : Prop :=
  ∀ (p : Params) (w : Word),
    ((∃ e, decode p w = .error e)
      ↔ w.toNat / 2 ^ 30 = 3 ∨ (w.toNat / 2 ^ 30 ≤ 1 ∧ w.toNat % 2 ^ 30 ≠ 0)
        ∨ (w.toNat / 2 ^ 30 = 2 ∧ w.toNat % 2 ^ 30 / 2 ^ (p.thrWidth + 1) ≠ 0))
    ∧ (p.thrWidth = 16 → w.toNat % 2 ^ 30 / 2 ^ (p.thrWidth + 1) = (w.extractLsb' 17 13).toNat)

/-- The counts of R69 at the width of R62, a consequence the spec derives: 2^17 ENCODE words, 4096 of them with an accepted
throttle, and 131074 legal words in all. -/
def Obligations.EncodingCounts : Prop :=
  ∀ p : Params, p.thrWidth = 16 →
    Nat.card { w : Word // ∃ thr tlm, decode p w = .ok (.encode thr tlm) } = 131072
    ∧ Nat.card { w : Word // ∃ thr tlm, decode p w = .ok (.encode thr tlm) ∧ thr ≤ 2047 } = 4096
    ∧ Nat.card { w : Word // ∃ i, decode p w = .ok i } = 131074

/-! ### Steps -/

/-- A step takes the first request presented, samples its ports and runs the instruction its word decodes to (R45, R49,
R63). One step per request is the spec's own decision D2, the order D20, the ports D4; that requests stand in `inbox` is
the model's choice (log 1). -/
def Obligations.StepRunsDecodedRequest : Prop :=
  ∀ (s : State) (r : Request s.par.cfgWidth) (rest : List (Event s.par.cfgWidth)) (i : Instr),
    s.inbox = .request r :: rest → decode s.par r.word = .ok i →
      step s = exec i { s with inbox := rest, ports := r.ports }

/-- A reserved request word is answered ILLEGAL_REQUEST with reason 0 and no data, in either phase and whatever the ports
carry, and changes no register (R145, the spec's own decision D17). The reserved bits of an ENCODE word are those above
TLM: `w[29:17]` at `W_THR = 16` (log 6). -/
def Obligations.ReservedWordAnswersIllegalRequest : Prop :=
  ∀ (s : State) (w : Word) (p : Ports s.par.cfgWidth) (rest : List (Event s.par.cfgWidth)),
    s.inbox = .request { word := w, ports := p } :: rest →
    (w.toNat / 2 ^ 30 = 3 ∨ (w.toNat / 2 ^ 30 ≤ 1 ∧ w.toNat % 2 ^ 30 ≠ 0)
      ∨ (w.toNat / 2 ^ 30 = 2 ∧ w.toNat % 2 ^ 30 / 2 ^ (s.par.thrWidth + 1) ≠ 0)) →
      step s = .next { s with
        inbox := rest
        ports := p
        outbox := s.outbox ++ [{ status := .illegalRequest, reason := 0#4, frame := none, symbols := none }] }

/-- A reset makes the block UNCONFIGURED with `ready` at 0, produces no response, and leaves the buffers handed out
(R180, R183; the spec's own decision D22). What the other registers then hold is not claimed. -/
def Obligations.ResetEventClearsThePhase : Prop :=
  ∀ (s : State) (rest : List (Event s.par.cfgWidth)), s.inbox = .reset :: rest →
    ∃ b : Block s.par, step s = .next { s with inbox := rest, block := b } ∧ b.phase = .unconfigured ∧ b.phase.code = 0#1

/-- With nothing presented a step changes nothing (R173: "it does nothing between requests and holds its state until
reset", in a rule the spec marks with its own decision D30; the step on an empty inbox is DEDUCED, log 9). -/
def Obligations.IdleStepChangesNothing : Prop := ∀ s : State, s.inbox = [] → step s = .next s

/-- The machine right after reset (R28, the spec's own decision D22, and the defaults of R7): UNCONFIGURED, `ready` at 0,
the default parameters; nothing presented and nothing answered (logs 1, 2). No value of a register that R28 leaves
unspecified is claimed. -/
def Obligations.ResetStateIsUnconfigured : Prop :=
  State.reset.block.phase = .unconfigured ∧ ready State.reset = 0#1
    ∧ State.reset.par.toRawParams
        = { cfgWidth := 32, thrWidth := 16, duty1Num := 3, duty1Den := 4, duty0Num := 3, duty0Den := 8,
            minPhaseTicks := 1, durWidth := 15, minGapTicks := 1, usPerS := 1000000 }
    ∧ State.reset.par.durMax = 32767 ∧ State.reset.inbox = [] ∧ State.reset.outbox = []

/-- The block never stalls, faults or refuses to take a step (R187, the spec's own decision D23; R29 for the fault of an
unspecified read). -/
def Obligations.EveryStepAnswersNext : Prop := ∀ s : State, ∃ t : State, step s = .next t

/-- `n` steps take exactly the first `n` events presented, in order, and hand out one response per request among them and
none for a reset (R49, R66, R180: the spec's own decisions D20, D19, D22). That events stand in `inbox` and responses in
`outbox` is the model's choice (logs 1, 2). -/
def Obligations.OneResponsePerRequestInOrder : Prop :=
  ∀ (n : Nat) (s : State), ∃ (b : Block s.par) (q : Ports s.par.cfgWidth) (new : List Response),
    Host.Core.run Sys2Proof.core n s
      = .next ({ s with block := b, ports := q, inbox := s.inbox.drop n, outbox := s.outbox ++ new } : State)
    ∧ new.length = ((s.inbox.take n).filter (fun e => e != .reset)).length

/-! ### NOP -/

/-- NOP answers OK with reason 0 and no data, in either phase, and writes no state; its word is 0 and every other word with
`OP = 00` is ILLEGAL (R144, the spec's own decision D32). -/
def Obligations.NopAnswersOkAndChangesNothing : Prop :=
  (∀ s : State, exec .nop s
      = .next { s with
          outbox := s.outbox ++ [{ status := .ok, reason := 0#4, frame := none, symbols := none }] })
    ∧ ∀ (p : Params) (w : Word), w.toNat < 2 ^ 30 →
        (w = 0#32 → decode p w = .ok .nop) ∧ (w ≠ 0#32 → ∃ e, decode p w = .error e)

/-! ### CONFIGURE -/

/-- R88 with the counts of R83 to R86: an UNCONFIGURED block none of whose checks of R87 holds writes the three
configuration registers, `PERIOD` and the table, becomes READY, and answers OK with reason 0 and no data. Nothing is
truncated. The counts are the spec's own decisions: the period rounded down (D11), the phase fractions and their rounding
(D7), the gap in microseconds and rounded down (D5, D10); `US_PER_S` is a parameter by log 7. -/
def Obligations.ConfigureWritesTheTable : Prop :=
  ∀ (s : State) (R B U P T1 T0 G : Nat),
    s.block.phase = .unconfigured →
    R = s.ports.resolutionHz.toNat → B = s.ports.bitRateHz.toNat → U = s.ports.postDelayUs.toNat →
    P = R / B → T1 = P * s.par.duty1Num / s.par.duty1Den → T0 = P * s.par.duty0Num / s.par.duty0Den →
    G = R * U / s.par.usPerS →
    0 < R → 0 < B → B ≤ R →
    (∀ d ∈ [T1, P - T1, T0, P - T0], s.par.minPhaseTicks ≤ d ∧ d ≤ s.par.durMax) →
    T0 < T1 → s.par.minGapTicks ≤ G → G ≤ s.par.durMax →
      ∃ b : Block s.par,
        exec .configure s
          = .next { s with
              block := b
              outbox := s.outbox ++ [{ status := .ok, reason := 0#4, frame := none, symbols := none }] }
        ∧ b.phase = .ready
        ∧ b.cfgResHz = s.ports.resolutionHz ∧ b.cfgBitRateHz = s.ports.bitRateHz
        ∧ b.cfgPostDelayUs = s.ports.postDelayUs
        ∧ b.period.toNat = P ∧ b.t1h.toNat = T1 ∧ b.t1l.toNat = P - T1 ∧ b.t0h.toNat = T0 ∧ b.t0l.toNat = P - T0
        ∧ b.tgap.toNat = G

/-- R87 and R89: while UNCONFIGURED the first check that holds decides the reason; the answer is CONFIGURATION_ERROR with
it and no data, and no register is written (D16). The order of the checks and the codes are the spec's own decisions D12,
D18; the counts they test are those of R83 to R86, its own decisions D5, D7, D10, D11, with `US_PER_S` a parameter by
log 7. -/
def Obligations.ConfigureReportsFirstFailingCheck : Prop :=
  ∀ (s : State) (R B U P T1 T0 G : Nat) (phases : List Nat),
    s.block.phase = .unconfigured →
    R = s.ports.resolutionHz.toNat → B = s.ports.bitRateHz.toNat → U = s.ports.postDelayUs.toNat →
    P = R / B → T1 = P * s.par.duty1Num / s.par.duty1Den → T0 = P * s.par.duty0Num / s.par.duty0Den →
    G = R * U / s.par.usPerS → phases = [T1, P - T1, T0, P - T0] →
      (R = 0 → AnswersReason s 1#4)
      ∧ (R ≠ 0 → B = 0 → AnswersReason s 2#4)
      ∧ (R ≠ 0 → B ≠ 0 → R < B → AnswersReason s 3#4)
      ∧ (R ≠ 0 → B ≠ 0 → B ≤ R → (∃ d ∈ phases, d < s.par.minPhaseTicks) → AnswersReason s 4#4)
      ∧ (R ≠ 0 → B ≠ 0 → B ≤ R → (∀ d ∈ phases, s.par.minPhaseTicks ≤ d) → T1 ≤ T0 → AnswersReason s 5#4)
      ∧ (R ≠ 0 → B ≠ 0 → B ≤ R → (∀ d ∈ phases, s.par.minPhaseTicks ≤ d) → T0 < T1 →
          (∃ d ∈ phases, s.par.durMax < d) → AnswersReason s 6#4)
      ∧ (R ≠ 0 → B ≠ 0 → B ≤ R → (∀ d ∈ phases, s.par.minPhaseTicks ≤ d) → T0 < T1 →
          (∀ d ∈ phases, d ≤ s.par.durMax) → G < s.par.minGapTicks → AnswersReason s 7#4)
      ∧ (R ≠ 0 → B ≠ 0 → B ≤ R → (∀ d ∈ phases, s.par.minPhaseTicks ≤ d) → T0 < T1 →
          (∀ d ∈ phases, d ≤ s.par.durMax) → s.par.minGapTicks ≤ G → s.par.durMax < G → AnswersReason s 8#4)

/-- A CONFIGURE while READY answers ALREADY_CONFIGURED with reason 0 and changes nothing, whatever the ports carry (R90, the
spec's own decision D15). -/
def Obligations.ConfigureWhileReadyIsTurnedAway : Prop :=
  ∀ s : State, s.block.phase = .ready →
    exec .configure s
      = .next { s with
          outbox := s.outbox ++ [{ status := .alreadyConfigured, reason := 0#4, frame := none, symbols := none }] }

/-- At the default parameters CONFIGURE succeeds exactly for periods of 3 to 43690 ticks and gaps of 1 to 32767 ticks
(R91, consequences the spec derives from R83 to R87, that is from its own decisions D5, D7, D10, D11, D12; the defaults
are R7's, D7 to D10). -/
def Obligations.DefaultParametersAcceptedRange : Prop :=
  ∀ (s : State) (R B U : Nat),
    s.par = Params.default → s.block.phase = .unconfigured →
    R = s.ports.resolutionHz.toNat → B = s.ports.bitRateHz.toNat → U = s.ports.postDelayUs.toNat →
      ((∃ t : State, exec .configure s = .next t ∧ t.block.phase = .ready)
        ↔ 0 < B ∧ 3 ≤ R / B ∧ R / B ≤ 43690 ∧ 1000000 ≤ R * U ∧ R * U < 32768000000)

/-- At the default parameters CONFIGURE never reports reason 5 (R91, a consequence the spec derives from R83 to R87, that is
from its own decisions D7, D11, D12; the default duties are D7's). -/
def Obligations.DefaultParametersNeverCollapse : Prop :=
  ∀ (s t : State) (r : Response),
    s.par = Params.default → exec .configure s = .next t → t.outbox = s.outbox ++ [r] → r.reason ≠ 5#4

/-- The constraints of R7 are checked on any parameter set: exactly the sets that meet them are let through. That
`US_PER_S` is a parameter and must be positive is the model's choice (log 7); that the fields of an ENCODE word stand below
OP and that an accepted period fits `PERIOD` is what R62, R9 and R24 ask of `W_THR` and `W_CFG` (log 6). -/
def Obligations.ParameterConstraintsAreChecked : Prop :=
  ∀ p : RawParams,
    (∃ q : Params, p.check = some q ∧ q.toRawParams = p)
      ↔ p.duty1Den > 0 ∧ p.duty0Den > 0 ∧ p.duty1Num < p.duty1Den ∧ p.duty0Num < p.duty0Den
        ∧ p.duty1Num * p.duty0Den > p.duty0Num * p.duty1Den ∧ p.minPhaseTicks ≥ 1 ∧ p.minGapTicks ≥ 1
        ∧ 1 ≤ p.durWidth ∧ p.durWidth ≤ 32 ∧ p.usPerS > 0
        ∧ p.thrWidth ≤ 29 ∧ (p.cfgWidth ≤ 32 ∨ p.durWidth ≤ 31)

/-! ### ENCODE -/

/-- R140, its encoding (at the `W_THR` of R62) and its pseudocode: NOT_READY, then INVALID_THROTTLE, else payload, checksum
(R103), frame, sixteen data symbols most significant bit first (R42, R121) and the reset symbol, 17 in all (R123); no
register is written. NOT_READY while UNCONFIGURED is the spec's own decision D14 (R163), on which no claim should rest, as
D14 adds; the symbol `Sym(0, TGAP)` is its own decision D27 (R122). Throttles that no word can spell are the model's
extension (log 18). -/
def Obligations.EncodeFollowsItsPseudocode : Prop :=
  (∀ (p : Params) (w : Word), p.thrWidth = 16 → w &&& 0xFFFE0000#32 = 0x80000000#32 →
      decode p w = .ok (.encode (w.toNat % 65536) (w.getLsbD 16)))
    ∧ ∀ (s : State) (thr : Nat) (tlm : Bool),
        (s.block.phase = .unconfigured →
          exec (.encode thr tlm) s
            = .next { s with
                outbox := s.outbox ++ [{ status := .notReady, reason := 0#4, frame := none, symbols := none }] })
        ∧ (s.block.phase = .ready → 2047 < thr →
          exec (.encode thr tlm) s
            = .next { s with
                outbox := s.outbox ++ [{ status := .invalidThrottle, reason := 0#4, frame := none,
                                         symbols := none }] })
        ∧ (s.block.phase = .ready → thr ≤ 2047 →
          ∃ (p c : Nat) (F : BitVec 16) (ss : List Symbol),
            exec (.encode thr tlm) s
              = .next { s with
                  outbox := s.outbox ++ [{ status := .ok, reason := 0#4, frame := some F, symbols := some ss }] }
            ∧ p = (thr <<< 1) ||| tlm.toNat
            ∧ c = (p >>> 8) ^^^ ((p >>> 4) % 16) ^^^ (p % 16)
            ∧ F.toNat = (p <<< 4) ||| c
            ∧ ss.length = 17
            ∧ (∀ i < 16, ss[i]? = some (if F.getLsbD (15 - i)
                then { high := s.block.t1h.toNat, low := s.block.t1l.toNat }
                else { high := s.block.t0h.toNat, low := s.block.t0l.toNat }))
            ∧ ss[16]? = some { high := 0, low := s.block.tgap.toNat })

/-- R104: an accepted ENCODE answers a frame whose bits 15 to 5 are the throttle, bit 4 the telemetry-request flag and
bits 3 to 0 the checksum of the payload. -/
def Obligations.AcceptedFrameLayout : Prop :=
  ∀ (s : State) (thr : Nat) (tlm : Bool), s.block.phase = .ready → thr ≤ 2047 →
    ∃ (F : BitVec 16) (ss : List Symbol),
      exec (.encode thr tlm) s
        = .next { s with
            outbox := s.outbox ++ [{ status := .ok, reason := 0#4, frame := some F, symbols := some ss }] }
      ∧ (F.extractLsb' 5 11).toNat = thr
      ∧ F.getLsbD 4 = tlm
      ∧ F.extractLsb' 0 4 = csum (payloadOf (BitVec.ofNat 11 thr) tlm)
      ∧ F = ((payloadOf (BitVec.ofNat 11 thr) tlm).setWidth 16 <<< 4)
              ||| (csum (payloadOf (BitVec.ofNat 11 thr) tlm)).setWidth 16

/-- R143: while READY a throttle above 2047, and no other, is rejected with INVALID_THROTTLE, reason 0 and no data, whatever
the telemetry bit; every throttle 0 to 2047 is encoded unchanged and never clamped. That the reserved codes 0 to 47 are
among these is the spec's own decision D26 (R101). R143 gives 2048 .. 65535; that INVALID_THROTTLE answers a throttle above
65535 too, which no word at the default width can spell, is the model's extension (log 18). -/
def Obligations.ThrottleCheckedNeverClamped : Prop :=
  ∀ (s : State) (thr : Nat) (tlm : Bool), s.block.phase = .ready →
    ∃ r : Response,
      exec (.encode thr tlm) s = .next { s with outbox := s.outbox ++ [r] }
      ∧ r.reason = 0#4
      ∧ (r.status = .invalidThrottle ↔ 2047 < thr) ∧ (r.status = .ok ↔ thr ≤ 2047)
      ∧ (r.frame = none ↔ 2047 < thr) ∧ (r.symbols = none ↔ 2047 < thr)
      ∧ ∀ F, r.frame = some F → F.toNat / 32 = thr ∧ F.getLsbD 4 = tlm

/-- R46: ENCODE and NOP leave the block's state; CONFIGURE leaves it too unless it answers OK; and repeating an ENCODE gives
the same response. -/
def Obligations.SideEffectsAreConfiguresAlone : Prop :=
  (∀ (i : Instr) (s t : State), exec i s = .next t →
      (i ≠ .configure → KeepsRegisters s t)
      ∧ (i = .configure → ∀ r, t.outbox = s.outbox ++ [r] → r.status ≠ .ok → KeepsRegisters s t))
    ∧ ∀ (thr : Nat) (tlm : Bool) (s t u : State),
        exec (.encode thr tlm) s = .next t → exec (.encode thr tlm) t = .next u →
          ∃ r : Response, t.outbox = s.outbox ++ [r] ∧ u.outbox = t.outbox ++ [r]

/-- What an instruction leaves, for every instruction and every phase: parameters, ports and what is presented stay; the
responses handed out stay and one is added; the registers change only by a CONFIGURE that an UNCONFIGURED block answers
with OK (R26, R66, R88, R142). One response per request is the spec's own decision D19, no write beside an error D15, D16
and D21. -/
def Obligations.FrameOfEveryInstruction : Prop :=
  ∀ (i : Instr) (s t : State), exec i s = .next t →
    ∃ (b : Block s.par) (r : Response),
      t = { s with block := b, outbox := s.outbox ++ [r] }
      ∧ (b = s.block
          ∨ (i = .configure ∧ s.block.phase = .unconfigured ∧ r.status = .ok ∧ b.phase = .ready))

/-- Two READY states with the same table entries answer an ENCODE alike, whatever their configuration registers, ports and
earlier responses (R141, a consequence the spec derives). They may differ in `PERIOD` too: R24 says "`PERIOD` is read by no
rule of ENCODE", while R26's table lists it among what ENCODE reads; following R24 is the model's reading (DEDUCED,
log 13). -/
def Obligations.EncodeReadsOnlyTheTable : Prop :=
  ∀ (s₁ s₂ : State) (thr : Nat) (tlm : Bool),
    s₁.block.phase = .ready → s₂.block.phase = .ready →
    s₁.block.t1h.toNat = s₂.block.t1h.toNat → s₁.block.t1l.toNat = s₂.block.t1l.toNat →
    s₁.block.t0h.toNat = s₂.block.t0h.toNat → s₁.block.t0l.toNat = s₂.block.t0l.toNat →
    s₁.block.tgap.toNat = s₂.block.tgap.toNat →
      ∃ r : Response,
        exec (.encode thr tlm) s₁ = .next { s₁ with outbox := s₁.outbox ++ [r] }
        ∧ exec (.encode thr tlm) s₂ = .next { s₂ with outbox := s₂.outbox ++ [r] }

/-! ### Checksum and frame -/

/-- R103: the checksum is the XOR fold of the payload's three nibbles, bit by bit; and it is the low four bits of
`p xor (p >> 4) xor (p >> 8)`. -/
def Obligations.ChecksumIsXorFold : Prop :=
  ∀ p : BitVec 12,
    (∀ k < 4, (csum p).getLsbD k = ((p.getLsbD (k + 8)).xor (p.getLsbD (k + 4))).xor (p.getLsbD k))
    ∧ (csum p).toNat = (p.toNat ^^^ (p.toNat >>> 4) ^^^ (p.toNat >>> 8)) &&& 0xF

/-- R107, consequences the spec derives: the checksum is linear over XOR; flipping payload bit j flips exactly checksum bit
j mod 4; and flipping any one bit of a well-formed frame gives a value that is not well-formed. -/
def Obligations.SingleBitErrorsAreDetected : Prop :=
  (∀ p q : BitVec 12, csum (p ^^^ q) = csum p ^^^ csum q)
    ∧ (∀ (p : BitVec 12) (j : Nat), j < 12 →
        csum (p ^^^ BitVec.twoPow 12 j) = csum p ^^^ BitVec.twoPow 4 (j % 4))
    ∧ ∀ (F : BitVec 16) (j : Nat), j < 16 → wellFormedFrame F = true →
        wellFormedFrame (F ^^^ BitVec.twoPow 16 j) = false

/-- R108, consequences the spec derives: flipping payload bits j and j + 4, or j and j + 8, is not detected. Flipping j,
j + 4 and j + 8 together flips checksum bit j: here the statement follows R103 (and the row `0x111` of 95_test_vectors.md)
against the words of R108 (log 12). -/
def Obligations.DoubleFlipsEscapeTripleFlipsDoNot : Prop :=
  ∀ (p : BitVec 12) (j : Nat),
    (j + 4 < 12 → csum (p ^^^ BitVec.twoPow 12 j ^^^ BitVec.twoPow 12 (j + 4)) = csum p)
    ∧ (j + 8 < 12 → csum (p ^^^ BitVec.twoPow 12 j ^^^ BitVec.twoPow 12 (j + 8)) = csum p)
    ∧ (j + 8 < 12 →
        csum (p ^^^ BitVec.twoPow 12 j ^^^ BitVec.twoPow 12 (j + 4) ^^^ BitVec.twoPow 12 (j + 8))
          = csum p ^^^ BitVec.twoPow 4 j)

/-- R106, a consequence the spec derives: distinct commands give distinct frames. -/
def Obligations.DistinctCommandsDistinctFrames : Prop :=
  ∀ (thr₁ thr₂ : Nat) (tlm₁ tlm₂ : Bool), thr₁ ≤ 2047 → thr₂ ≤ 2047 →
    frameOf (throttleOf thr₁) tlm₁ = frameOf (throttleOf thr₂) tlm₂ → thr₁ = thr₂ ∧ tlm₁ = tlm₂

/-- R105, consequences the spec derives: the well-formed 16-bit values are exactly the frames of accepted commands, 4096 of
them. -/
def Obligations.WellFormedFramesAreTheEncodedOnes : Prop :=
  (∀ F : BitVec 16,
      F.extractLsb' 0 4 = csum (F.extractLsb' 4 12)
        ↔ ∃ (thr : Nat) (tlm : Bool), thr ≤ 2047 ∧ F = frameOf (throttleOf thr) tlm)
    ∧ Nat.card { F : BitVec 16 // F.extractLsb' 0 4 = csum (F.extractLsb' 4 12) } = 4096

/-! ### The symbol buffer -/

/-- R126, a consequence the spec derives: given a table that meets R27, the buffer determines its frame. -/
def Obligations.BufferDeterminesItsFrame : Prop :=
  ∀ (p : Params) (b : Block p) (F : BitVec 16), TableOk p b →
    frameOfSymbols b.lut (symbolsOf b.lut F) = some F

/-- R124 and R125, consequences the spec derives: with a table that meets R27 every data symbol lasts `PERIOD` ticks and has
a high phase, a logical 1 has the longer one, and the reset symbol lasts `TGAP` ticks. That the reset symbol has a high
duration of 0 is the spec's own decision D27 (R122). -/
def Obligations.DataSymbolsHaveConstantPeriod : Prop :=
  ∀ (p : Params) (b : Block p) (F : BitVec 16), TableOk p b →
    (∀ i < 16, ∃ y, (symbolsOf b.lut F)[i]? = some y ∧ y.high + y.low = b.period.toNat ∧ 0 < y.high)
    ∧ (∃ y, (symbolsOf b.lut F)[16]? = some y ∧ y.high = 0 ∧ y.low = b.tgap.toNat)
    ∧ (b.lut 0).high < (b.lut 1).high ∧ (b.lut 1).low < (b.lut 0).low

/-- R127, R186 and R188: played out, a buffer lasts `16 * PERIOD + TGAP` ticks (a consequence the spec derives), starts
high, and its last `TGAP` ticks are low. High phase first, and the line low through the gap, is the spec's own decision D27
(R127); the line levels are functions beside the block (log 16). -/
def Obligations.PlayedBufferEndsInTheGap : Prop :=
  ∀ (p : Params) (b : Block p) (F : BitVec 16), TableOk p b →
    bufferTicks (symbolsOf b.lut F) = 16 * b.period.toNat + b.tgap.toNat
    ∧ (lineLevels (symbolsOf b.lut F)).length = 16 * b.period.toNat + b.tgap.toNat
    ∧ (lineLevels (symbolsOf b.lut F)).head? = some true
    ∧ (lineLevels (symbolsOf b.lut F)).drop (16 * b.period.toNat)
        = List.replicate b.tgap.toNat false

/-! ### Status of a response -/

/-- The numbers of R160, R87 and R20 (the spec's own decisions D18, D12, D14): the six status codes, the eight reason codes
and the two values of `ready`. Reading them is total: no other code is produced. -/
def Obligations.StatusAndReasonCodes : Prop :=
  Status.ok.code = 0#3 ∧ Status.configurationError.code = 1#3 ∧ Status.invalidThrottle.code = 2#3
    ∧ Status.notReady.code = 3#3 ∧ Status.alreadyConfigured.code = 4#3 ∧ Status.illegalRequest.code = 5#3
    ∧ (∀ st : Status, st.code.toNat ≤ 5)
    ∧ CfgReason.zeroResolution.code = 1#4 ∧ CfgReason.zeroBitRate.code = 2#4
    ∧ CfgReason.rateExceedsResolution.code = 3#4 ∧ CfgReason.phaseTooShort.code = 4#4
    ∧ CfgReason.durationsCollapse.code = 5#4 ∧ CfgReason.durationOverflow.code = 6#4
    ∧ CfgReason.gapTooShort.code = 7#4 ∧ CfgReason.gapOverflow.code = 8#4
    ∧ Phase.unconfigured.code = 0#1 ∧ Phase.ready.code = 1#1

/-- R162: INVALID_THROTTLE is the answer only to an ENCODE with a throttle above 2047 while READY; it carries reason 0 and
no data and changes no register. -/
def Obligations.InvalidThrottleOnlyFromReadyEncode : Prop :=
  ∀ (s t : State) (r : Response), step s = .next t → t.outbox = s.outbox ++ [r] → r.status = .invalidThrottle →
    s.block.phase = .ready
    ∧ (∃ (q : Request s.par.cfgWidth) (rest : List (Event s.par.cfgWidth)) (thr : Nat) (tlm : Bool),
        s.inbox = .request q :: rest ∧ decode s.par q.word = .ok (.encode thr tlm) ∧ 2047 < thr)
    ∧ r.reason = 0#4 ∧ r.frame = none ∧ r.symbols = none ∧ KeepsRegisters s t

/-- R161: CONFIGURATION_ERROR is the answer only to a CONFIGURE while UNCONFIGURED whose operands fail a check; it carries
the reason of the first check that failed, from 1 to 8, and nothing else, and the block stays UNCONFIGURED with no register
changed. The order of the checks and their codes (R87) are the spec's own decision D12, and the counts they test (R83 to
R86) D5, D7, D10, D11, with `US_PER_S` a parameter by log 7. -/
def Obligations.ConfigurationErrorOnlyFromConfigure : Prop :=
  ∀ (s t : State) (r : Response), step s = .next t → t.outbox = s.outbox ++ [r] → r.status = .configurationError →
    s.block.phase = .unconfigured
    ∧ (∃ (q : Request s.par.cfgWidth) (rest : List (Event s.par.cfgWidth)) (e : CfgReason),
        s.inbox = .request q :: rest ∧ decode s.par q.word = .ok .configure
        ∧ ¬ AcceptablePorts s.par q.ports
        ∧ firstFailure s.par q.ports.resolutionHz.toNat q.ports.bitRateHz.toNat q.ports.postDelayUs.toNat = some e
        ∧ r.reason = e.code)
    ∧ 1 ≤ r.reason.toNat ∧ r.reason.toNat ≤ 8 ∧ r.frame = none ∧ r.symbols = none ∧ KeepsRegisters s t

/-- R166, with R160's names: one status per request, the first of decode, phase and operand conditions that holds. The order
is the spec's own decision D12, D17, NOT_READY is D14 and ALREADY_CONFIGURED D15; the checks of R87 test the counts of R83
to R86 (D5, D7, D10, D11; `US_PER_S` a parameter by log 7). -/
def Obligations.StatusPriority : Prop :=
  ∀ (s : State) (w : Word) (p : Ports s.par.cfgWidth) (rest : List (Event s.par.cfgWidth)),
    s.inbox = .request { word := w, ports := p } :: rest →
      ∃ (t : State) (r : Response), step s = .next t ∧ t.outbox = s.outbox ++ [r]
        ∧ ((∃ e, decode s.par w = .error e) → r.status = .illegalRequest)
        ∧ (decode s.par w = .ok .nop → r.status = .ok)
        ∧ (∀ thr tlm, decode s.par w = .ok (.encode thr tlm) →
            (s.block.phase = .unconfigured → r.status = .notReady)
            ∧ (s.block.phase = .ready → 2047 < thr → r.status = .invalidThrottle)
            ∧ (s.block.phase = .ready → thr ≤ 2047 → r.status = .ok))
        ∧ (decode s.par w = .ok .configure →
            (s.block.phase = .ready → r.status = .alreadyConfigured)
            ∧ (s.block.phase = .unconfigured → ¬ AcceptablePorts s.par p → r.status = .configurationError)
            ∧ (s.block.phase = .unconfigured → AcceptablePorts s.par p → r.status = .ok))

/-- R174: a response that is not OK carries no frame and no symbols, and nothing out of range is clamped, wrapped or given a
default: an OK ENCODE carries the throttle presented, and an OK CONFIGURE the operands presented; operands that a check of
R87 turns away are never answered OK; and no register is written beside an answer that is not OK (R89, R164: the spec's own
decisions D16, D21). The checks of R87 are D12's, on the counts of R83 to R86 (D5, D7, D10, D11; `US_PER_S` a parameter by
log 7). -/
def Obligations.NoErrorSubstitutesAValue : Prop :=
  ∀ (s t : State) (r : Response) (q : Request s.par.cfgWidth) (rest : List (Event s.par.cfgWidth)),
    s.inbox = .request q :: rest → step s = .next t → t.outbox = s.outbox ++ [r] →
      (r.status ≠ .ok → r.frame = none ∧ r.symbols = none ∧ KeepsRegisters s t)
      ∧ (∀ thr tlm, decode s.par q.word = .ok (.encode thr tlm) → r.status = .ok →
          ∃ F, r.frame = some F ∧ F.toNat / 32 = thr)
      ∧ (decode s.par q.word = .ok .configure → r.status = .ok →
          t.block.cfgResHz.toNat = q.ports.resolutionHz.toNat
            ∧ t.block.cfgBitRateHz.toNat = q.ports.bitRateHz.toNat
            ∧ t.block.cfgPostDelayUs.toNat = q.ports.postDelayUs.toNat)
      ∧ (decode s.par q.word = .ok .configure → ¬ AcceptablePorts s.par q.ports → r.status ≠ .ok)

/-- R164, the spec's own decision D21: an error changes no register: the block after the step is the block before it. -/
def Obligations.ErrorsChangeNoState : Prop :=
  ∀ (s t : State) (r : Response), step s = .next t → t.outbox = s.outbox ++ [r] → r.status ≠ .ok →
    KeepsRegisters s t

/-- R165: after any error the next request is answered normally: with the block and the response it would get had the
failed request never been presented. -/
def Obligations.RequestAfterErrorIsAnsweredNormally : Prop :=
  ∀ (s t : State) (r : Response) (q₁ q₂ : Request s.par.cfgWidth) (rest : List (Event s.par.cfgWidth)),
    s.inbox = .request q₁ :: .request q₂ :: rest → step s = .next t → t.outbox = s.outbox ++ [r] → r.status ≠ .ok →
      ∃ (b : Block s.par) (r₂ : Response),
        step t = .next { s with inbox := rest, ports := q₂.ports, block := b, outbox := s.outbox ++ [r, r₂] }
        ∧ step { s with inbox := .request q₂ :: rest }
          = .next { s with inbox := rest, ports := q₂.ports, block := b, outbox := s.outbox ++ [r₂] }

/-- R63 (the spec's own decision D4): any request other than CONFIGURE ignores the operand ports, the reserved words too. -/
def Obligations.PortsReadByConfigureAlone : Prop :=
  ∀ (s : State) (w : Word) (p q : Ports s.par.cfgWidth) (rest : List (Event s.par.cfgWidth)),
    decode s.par w ≠ .ok .configure → ∃ (b : Block s.par) (r : Response),
      step { s with inbox := .request { word := w, ports := p } :: rest }
        = .next { s with inbox := rest, ports := p, block := b, outbox := s.outbox ++ [r] }
      ∧ step { s with inbox := .request { word := w, ports := q } :: rest }
        = .next { s with inbox := rest, ports := q, block := b, outbox := s.outbox ++ [r] }

/-! ### Runs -/

/-- R20: a step takes the block from READY to UNCONFIGURED only on a reset, and from UNCONFIGURED to READY only on a
CONFIGURE it answers with OK; `ready` shows the phase. The encoding 0 and 1 is the spec's own decision D14, the reset
event D22. -/
def Obligations.PhaseChangesOnlyByConfigureAndReset : Prop :=
  ∀ s t : State, step s = .next t →
    (s.block.phase = .ready → t.block.phase = .unconfigured → ∃ rest, s.inbox = .reset :: rest)
    ∧ (s.block.phase = .unconfigured → t.block.phase = .ready →
        ∃ (q : Request s.par.cfgWidth) (rest : List (Event s.par.cfgWidth)) (r : Response),
          s.inbox = .request q :: rest ∧ decode s.par q.word = .ok .configure ∧ t.outbox = s.outbox ++ [r]
            ∧ r.status = .ok)
    ∧ (ready t = 1#1 ↔ t.block.phase = .ready) ∧ (ready t = 0#1 ↔ t.block.phase = .unconfigured)

/-- R26 and R90 (the spec's own decision D15) over runs: once READY, the registers never change while no reset is
presented. -/
def Obligations.TableIsWriteOncePerReset : Prop :=
  ∀ (n : Nat) (s t : State), s.block.phase = .ready → (∀ e ∈ s.inbox, e ≠ .reset) →
    Host.Core.run Sys2Proof.core n s = .next t → KeepsRegisters s t

/-- R47 over runs: the responses handed out are never altered and never read: with any other record of earlier responses the
run is the same and hands out the same new ones. -/
def Obligations.HandedOutBuffersNeverChange : Prop :=
  ∀ (n : Nat) (s t : State) (o : List Response), Host.Core.run Sys2Proof.core n s = .next t →
    ∃ new : List Response, t.outbox = s.outbox ++ new
      ∧ Host.Core.run Sys2Proof.core n ({ s with outbox := o } : State)
          = .next ({ t with outbox := o ++ new } : State)

/-- R49 and R147, consequences the spec derives: two ENCODE requests presented in either order get the same responses, each
its own, and leave the same block. The total order is the spec's own decision D20. -/
def Obligations.EncodeRequestsCommute : Prop :=
  ∀ (s : State) (q₁ q₂ : Request s.par.cfgWidth) (thr₁ thr₂ : Nat) (tlm₁ tlm₂ : Bool),
    decode s.par q₁.word = .ok (.encode thr₁ tlm₁) → decode s.par q₂.word = .ok (.encode thr₂ tlm₂) →
      ∃ (r₁ r₂ : Response) (t u : State),
        Host.Core.run Sys2Proof.core 2 ({ s with inbox := [.request q₁, .request q₂] } : State) = .next t
        ∧ Host.Core.run Sys2Proof.core 2 ({ s with inbox := [.request q₂, .request q₁] } : State) = .next u
        ∧ t.outbox = s.outbox ++ [r₁, r₂] ∧ u.outbox = s.outbox ++ [r₂, r₁]
        ∧ KeepsRegisters s t ∧ KeepsRegisters s u

/-- R182 and R184: an ENCODE in the step right after a successful CONFIGURE reads the new table (R184 is marked with the
spec's own decisions D2, D23). The conclusion spells out that table: the counts of R83 to R86, which are the spec's own
decisions (the period rounded down, D11; the phase fractions and their rounding, D7; the gap in microseconds and rounded
down, D5, D10), with `US_PER_S` a parameter by log 7; the symbols most significant bit first (R121); and the reset symbol
`Sym(0, TGAP)`, its own decision D27 (R122). The checks the operands pass are R87's (D12). -/
def Obligations.EncodeRightAfterConfigureReadsNewTable : Prop :=
  ∀ (s : State) (w : Word) (p q : Ports s.par.cfgWidth) (rest : List (Event s.par.cfgWidth)) (thr : Nat) (tlm : Bool)
      (P T1 T0 G : Nat),
    s.block.phase = .unconfigured →
    s.inbox = .request { word := 0x40000000#32, ports := p } :: .request { word := w, ports := q } :: rest →
    decode s.par w = .ok (.encode thr tlm) → thr ≤ 2047 →
    AcceptablePorts s.par p →
    P = p.resolutionHz.toNat / p.bitRateHz.toNat →
    T1 = P * s.par.duty1Num / s.par.duty1Den → T0 = P * s.par.duty0Num / s.par.duty0Den →
    G = p.resolutionHz.toNat * p.postDelayUs.toNat / s.par.usPerS →
      ∃ (t : State) (b : Block s.par) (F : BitVec 16) (ss : List Symbol),
        Host.Core.run Sys2Proof.core 2 s = .next t ∧ ready t = 1#1
        ∧ t = { s with
            block := b
            ports := q
            inbox := rest
            outbox := s.outbox ++ [{ status := .ok, reason := 0#4, frame := none, symbols := none },
                                   { status := .ok, reason := 0#4, frame := some F, symbols := some ss }] }
        ∧ (∀ i < 16, ss[i]? = some (if F.getLsbD (15 - i) then { high := T1, low := P - T1 }
                                    else { high := T0, low := P - T0 }))
        ∧ ss[16]? = some { high := 0, low := G }

/-- R183: from any state a reset followed by a CONFIGURE with acceptable operands reconfigures the block, and the buffers
handed out before stay as they were (a consequence the spec derives from R180 and R47). The reset is the spec's own decision
D22; the registers then hold the operands (R88), which pass the checks of R87 (D12; of counts by D7, D11), and `TGAP` is
`R * U div US_PER_S` (R86), in microseconds and rounded down by its own decisions D5 and D10, with `US_PER_S` a parameter by
log 7. -/
def Obligations.ResetThenConfigureReconfigures : Prop :=
  ∀ (s : State) (p : Ports s.par.cfgWidth) (rest : List (Event s.par.cfgWidth)),
    s.inbox = .reset :: .request { word := 0x40000000#32, ports := p } :: rest →
    AcceptablePorts s.par p →
      ∃ b : Block s.par,
        Host.Core.run Sys2Proof.core 2 s
          = .next ({ s with
              block := b
              ports := p
              inbox := rest
              outbox := s.outbox ++ [{ status := .ok, reason := 0#4, frame := none, symbols := none }] } : State)
        ∧ b.phase = .ready ∧ b.cfgResHz = p.resolutionHz ∧ b.cfgBitRateHz = p.bitRateHz
        ∧ b.cfgPostDelayUs = p.postDelayUs
        ∧ b.tgap.toNat = p.resolutionHz.toNat * p.postDelayUs.toNat / s.par.usPerS

/-- R29 (a consequence the spec derives, from R28, its own decision D22): a read of the table while UNCONFIGURED is a model
fault; while READY it reads the block's table. -/
def Obligations.TableReadNeedsReady : Prop :=
  ∀ (s : State) (k : (Fin 3 → Symbol) → Result),
    (s.block.phase = .unconfigured → withTable s k = .fault .unspecifiedRead)
    ∧ (s.block.phase = .ready → withTable s k = k s.block.lut)

/-! ### The invariant -/

/-- The invariant holds after reset (R27, R28, the spec's own decision D22). It claims no value of a register that R28 leaves
unspecified. -/
def Obligations.InvariantHoldsAtReset : Prop := Inv State.reset

/-- Every step keeps the invariant: while READY the table is the one of the configuration registers and meets R27; every
response handed out has the form of R66, and every buffer is 17 symbols of constant period that carry a well-formed frame
(R27, R66, R105, R121 to R125). The table is that of R83 to R86, whose counts are the spec's own decisions (D5, D7, D10,
D11), with `US_PER_S` a parameter by log 7, for operands that pass R87 (D12); the form of a response is its own decision D18
and D19, the reset symbol's high duration of 0 D27 (R122). That the durations of a symbol handed out are natural numbers
bounded by `DUR_MAX` as an invariant is log 8. That registers and ports hold numbers of their widths (R9) is in their
types. -/
def Obligations.StepKeepsInvariant : Prop :=
  ∀ s t : State, Inv s → step s = .next t → Inv t

/-! ### Instances -/

/-- R171 (the spec's own decision D28): a step of one instance leaves every other instance, and steps of two instances give
the same system in either order. That a system is a list of states is the model's choice (log 14). -/
def Obligations.InstancesAreIndependent : Prop :=
  ∀ (sys : System) (n m : Nat), n ≠ m → n < sys.length → m < sys.length →
    ∃ a b c : System,
      sys.stepInstance n = .next a ∧ sys.stepInstance m = .next b
      ∧ (∀ k, k ≠ n → a[k]? = sys[k]?)
      ∧ (∃ s t, sys[n]? = some s ∧ step s = .next t ∧ a[n]? = some t)
      ∧ a.stepInstance m = .next c ∧ b.stepInstance n = .next c
end

