-- ==== Sys2Proof/Laws/Config.lean ====
section
/-! SUPPORT. What the constraints of R7 give, one lemma each: every parameter set meets them. -/

namespace Sys2Proof

/-- All the constraints at once. -/
theorem Params.constraints (p : Params) :
    0 < p.duty1Den ∧ 0 < p.duty0Den ∧ p.duty1Num < p.duty1Den ∧ p.duty0Num < p.duty0Den
      ∧ p.duty0Num * p.duty1Den < p.duty1Num * p.duty0Den ∧ 1 ≤ p.minPhaseTicks ∧ 1 ≤ p.minGapTicks
      ∧ 1 ≤ p.durWidth ∧ p.durWidth ≤ 32 ∧ 0 < p.usPerS
      ∧ p.thrWidth ≤ 29 ∧ (p.cfgWidth ≤ 32 ∨ p.durWidth ≤ 31) := by
  have h := p.ok
  simp only [RawParams.wf, Bool.and_eq_true, decide_eq_true_eq] at h
  obtain ⟨⟨⟨⟨⟨⟨⟨⟨⟨⟨⟨a, b⟩, c⟩, d⟩, e⟩, f⟩, g⟩, i⟩, j⟩, k⟩, l⟩, m⟩ := h
  exact ⟨a, b, c, d, e, f, g, i, j, k, l, m⟩

theorem Params.duty1Den_pos (p : Params) : 0 < p.duty1Den := p.constraints.1

theorem Params.duty0Den_pos (p : Params) : 0 < p.duty0Den := p.constraints.2.1

theorem Params.duty1_lt (p : Params) : p.duty1Num < p.duty1Den := p.constraints.2.2.1

theorem Params.duty0_lt (p : Params) : p.duty0Num < p.duty0Den := p.constraints.2.2.2.1

theorem Params.minPhase_pos (p : Params) : 1 ≤ p.minPhaseTicks := p.constraints.2.2.2.2.2.1

theorem Params.minGap_pos (p : Params) : 1 ≤ p.minGapTicks := p.constraints.2.2.2.2.2.2.1

theorem Params.usPerS_pos (p : Params) : 0 < p.usPerS := p.constraints.2.2.2.2.2.2.2.2.2.1

/-- `OP`, `RSV`, `TLM` and `THR` share out the word. -/
theorem Params.thrWidth_le (p : Params) : p.thrWidth ≤ 29 := p.constraints.2.2.2.2.2.2.2.2.2.2.1

end Sys2Proof
end

