-- ==== Sys2Proof/Laws/Decode.lean ====
section
/-! SUPPORT. The fields of a word as numbers, and the cases of the decoder. -/

namespace Sys2Proof

theorem opField_eq (w : Word) : opField w = w.toNat / 2 ^ 30 := by
  have := w.isLt
  simp only [opField, field]
  omega

theorem lowReserved_eq (w : Word) : lowReserved w = w.toNat % 2 ^ 30 := by simp [lowReserved, field]

theorem thrField_eq (p : Params) (w : Word) : thrField p w = w.toNat % 2 ^ p.thrWidth := by simp [thrField, field]

/-- The reserved bits of an ENCODE word: what stands below `OP` and above `TLM`. -/
theorem encodeReserved_eq (p : Params) (w : Word) :
    encodeReserved p w = w.toNat % 2 ^ 30 / 2 ^ (p.thrWidth + 1) := by
  have h : 2 ^ 30 = 2 ^ (p.thrWidth + 1) * 2 ^ (29 - p.thrWidth) := by
    rw [← Nat.pow_add]
    congr 1
    have := p.thrWidth_le
    omega
  rw [encodeReserved, field, h, Nat.mod_mul_right_div_self]

/-- The instruction a table word decodes to. -/
theorem decodeTableWord_eq_some {nbits w : Nat} {i : Instr} (h : decodeTableWord nbits w = some i) :
    nbits ≤ 32 ∧ decode Params.default (tableWord nbits w) = .ok i := by
  unfold decodeTableWord at h
  split at h
  · next hn =>
    refine ⟨hn, ?_⟩
    split at h
    · next j hj => rw [hj, Option.some.inj h]
    · exact absurd h (by simp)
  · exact absurd h (by simp)

end Sys2Proof
end

