-- ==== Sys2Proof/Laws/State.lean ====
section
/-! SUPPORT. One lemma per field of the state for each named update: what the update leaves and what it sets. -/

namespace Sys2Proof.Machine

@[simp] theorem takeEvent_par (s : State) (rest : List (Event s.par.cfgWidth)) :
    (takeEvent s rest).par = s.par := rfl

@[simp] theorem takeEvent_block (s : State) (rest : List (Event s.par.cfgWidth)) :
    (takeEvent s rest).block = s.block := rfl

@[simp] theorem takeEvent_ports (s : State) (rest : List (Event s.par.cfgWidth)) :
    (takeEvent s rest).ports = s.ports := rfl

@[simp] theorem takeEvent_inbox (s : State) (rest : List (Event s.par.cfgWidth)) :
    (takeEvent s rest).inbox = rest := rfl

@[simp] theorem takeEvent_outbox (s : State) (rest : List (Event s.par.cfgWidth)) :
    (takeEvent s rest).outbox = s.outbox := rfl

@[simp] theorem takeRequest_par (s : State) (p : Ports s.par.cfgWidth)
    (rest : List (Event s.par.cfgWidth)) :
    (takeRequest s p rest).par = s.par := rfl

@[simp] theorem takeRequest_block (s : State) (p : Ports s.par.cfgWidth)
    (rest : List (Event s.par.cfgWidth)) :
    (takeRequest s p rest).block = s.block := rfl

@[simp] theorem takeRequest_ports (s : State) (p : Ports s.par.cfgWidth)
    (rest : List (Event s.par.cfgWidth)) :
    (takeRequest s p rest).ports = p := rfl

@[simp] theorem takeRequest_inbox (s : State) (p : Ports s.par.cfgWidth)
    (rest : List (Event s.par.cfgWidth)) :
    (takeRequest s p rest).inbox = rest := rfl

@[simp] theorem takeRequest_outbox (s : State) (p : Ports s.par.cfgWidth)
    (rest : List (Event s.par.cfgWidth)) :
    (takeRequest s p rest).outbox = s.outbox := rfl

@[simp] theorem present_par (w : Word) (s : State) :
    (present w s).par = s.par := rfl

@[simp] theorem present_block (w : Word) (s : State) :
    (present w s).block = s.block := rfl

@[simp] theorem present_ports (w : Word) (s : State) :
    (present w s).ports = s.ports := rfl

@[simp] theorem present_inbox (w : Word) (s : State) :
    (present w s).inbox = .request { word := w, ports := s.ports } :: s.inbox := rfl

@[simp] theorem present_outbox (w : Word) (s : State) :
    (present w s).outbox = s.outbox := rfl

@[simp] theorem handOut_par (r : Response) (s : State) :
    (handOut r s).par = s.par := rfl

@[simp] theorem handOut_block (r : Response) (s : State) :
    (handOut r s).block = s.block := rfl

@[simp] theorem handOut_ports (r : Response) (s : State) :
    (handOut r s).ports = s.ports := rfl

@[simp] theorem handOut_inbox (r : Response) (s : State) :
    (handOut r s).inbox = s.inbox := rfl

@[simp] theorem handOut_outbox (r : Response) (s : State) :
    (handOut r s).outbox = s.outbox ++ [r] := rfl

@[simp] theorem clearBlock_par (s : State) :
    (clearBlock s).par = s.par := rfl

@[simp] theorem clearBlock_block (s : State) :
    (clearBlock s).block = Block.reset s.par := rfl

@[simp] theorem clearBlock_ports (s : State) :
    (clearBlock s).ports = s.ports := rfl

@[simp] theorem clearBlock_inbox (s : State) :
    (clearBlock s).inbox = s.inbox := rfl

@[simp] theorem clearBlock_outbox (s : State) :
    (clearBlock s).outbox = s.outbox := rfl

@[simp] theorem writeConfig_par {s : State}
    (h : firstFailure s.par (portRes s) (portRate s) (portDelay s) = none) :
    (writeConfig s h).par = s.par := rfl

@[simp] theorem writeConfig_ports {s : State}
    (h : firstFailure s.par (portRes s) (portRate s) (portDelay s) = none) :
    (writeConfig s h).ports = s.ports := rfl

@[simp] theorem writeConfig_inbox {s : State}
    (h : firstFailure s.par (portRes s) (portRate s) (portDelay s) = none) :
    (writeConfig s h).inbox = s.inbox := rfl

@[simp] theorem writeConfig_outbox {s : State}
    (h : firstFailure s.par (portRes s) (portRate s) (portDelay s) = none) :
    (writeConfig s h).outbox = s.outbox := rfl

@[simp] theorem writeConfig_block {s : State}
    (h : firstFailure s.par (portRes s) (portRate s) (portDelay s) = none) :
    (writeConfig s h).block = configuredBlock s.par s.ports h := rfl

@[simp] theorem configuredBlock_phase {p : Params} {q : Ports p.cfgWidth}
    (h : firstFailure p q.resolutionHz.toNat q.bitRateHz.toNat q.postDelayUs.toNat = none) :
    (configuredBlock p q h).phase = .ready := rfl

@[simp] theorem configuredBlock_cfgResHz {p : Params} {q : Ports p.cfgWidth}
    (h : firstFailure p q.resolutionHz.toNat q.bitRateHz.toNat q.postDelayUs.toNat = none) :
    (configuredBlock p q h).cfgResHz = q.resolutionHz := rfl

@[simp] theorem configuredBlock_cfgBitRateHz {p : Params} {q : Ports p.cfgWidth}
    (h : firstFailure p q.resolutionHz.toNat q.bitRateHz.toNat q.postDelayUs.toNat = none) :
    (configuredBlock p q h).cfgBitRateHz = q.bitRateHz := rfl

@[simp] theorem configuredBlock_cfgPostDelayUs {p : Params} {q : Ports p.cfgWidth}
    (h : firstFailure p q.resolutionHz.toNat q.bitRateHz.toNat q.postDelayUs.toNat = none) :
    (configuredBlock p q h).cfgPostDelayUs = q.postDelayUs := rfl

@[simp] theorem configuredBlock_period {p : Params} {q : Ports p.cfgWidth}
    (h : firstFailure p q.resolutionHz.toNat q.bitRateHz.toNat q.postDelayUs.toNat = none) :
    (configuredBlock p q h).period.toNat
      = (timingOf p q.resolutionHz.toNat q.bitRateHz.toNat q.postDelayUs.toNat).period := BitVec.toNat_ofNatLT ..

@[simp] theorem configuredBlock_t1h {p : Params} {q : Ports p.cfgWidth}
    (h : firstFailure p q.resolutionHz.toNat q.bitRateHz.toNat q.postDelayUs.toNat = none) :
    (configuredBlock p q h).t1h.toNat
      = (timingOf p q.resolutionHz.toNat q.bitRateHz.toNat q.postDelayUs.toNat).t1h := BitVec.toNat_ofNatLT ..

@[simp] theorem configuredBlock_t1l {p : Params} {q : Ports p.cfgWidth}
    (h : firstFailure p q.resolutionHz.toNat q.bitRateHz.toNat q.postDelayUs.toNat = none) :
    (configuredBlock p q h).t1l.toNat
      = (timingOf p q.resolutionHz.toNat q.bitRateHz.toNat q.postDelayUs.toNat).t1l := BitVec.toNat_ofNatLT ..

@[simp] theorem configuredBlock_t0h {p : Params} {q : Ports p.cfgWidth}
    (h : firstFailure p q.resolutionHz.toNat q.bitRateHz.toNat q.postDelayUs.toNat = none) :
    (configuredBlock p q h).t0h.toNat
      = (timingOf p q.resolutionHz.toNat q.bitRateHz.toNat q.postDelayUs.toNat).t0h := BitVec.toNat_ofNatLT ..

@[simp] theorem configuredBlock_t0l {p : Params} {q : Ports p.cfgWidth}
    (h : firstFailure p q.resolutionHz.toNat q.bitRateHz.toNat q.postDelayUs.toNat = none) :
    (configuredBlock p q h).t0l.toNat
      = (timingOf p q.resolutionHz.toNat q.bitRateHz.toNat q.postDelayUs.toNat).t0l := BitVec.toNat_ofNatLT ..

@[simp] theorem configuredBlock_tgap {p : Params} {q : Ports p.cfgWidth}
    (h : firstFailure p q.resolutionHz.toNat q.bitRateHz.toNat q.postDelayUs.toNat = none) :
    (configuredBlock p q h).tgap.toNat
      = (timingOf p q.resolutionHz.toNat q.bitRateHz.toNat q.postDelayUs.toNat).tgap := BitVec.toNat_ofNatLT ..

@[simp] theorem blockReset_phase (p : Params) : (Block.reset p).phase = .unconfigured := rfl

end Sys2Proof.Machine
end

