-- ==== Sys2Proof/Laws/Ops.lean ====
section
/-! SUPPORT. One lemma per shared operation: everything it can do. -/

namespace Sys2Proof.Machine

/-- Responding always gives a next state: the response is handed out and nothing else changes. -/
@[simp] theorem respond_eq (st : Status) (reason : BitVec 4) (f : Option (BitVec 16)) (ss : Option (List Symbol))
    (s : State) :
    respond st reason f ss s
      = .next (handOut { status := st, reason := reason, frame := f, symbols := ss } s) := rfl

/-- Raising an error hands out a response without data and changes nothing else. -/
@[simp] theorem raise_eq (st : Status) (reason : BitVec 4) (s : State) :
    raise st reason s
      = .next (handOut { status := st, reason := reason, frame := none, symbols := none } s) := rfl

/-- Reading the table: a fault while UNCONFIGURED, the block's table while READY. -/
theorem withTable_cases (s : State) (k : (Fin 3 → Symbol) → Result) :
    (s.block.phase = .unconfigured ∧ withTable s k = .fault .unspecifiedRead)
      ∨ (s.block.phase = .ready ∧ withTable s k = k s.block.lut) := by
  cases h : s.block.phase <;> simp [withTable, h]

theorem withTable_ready {s : State} (h : s.block.phase = .ready) (k : (Fin 3 → Symbol) → Result) :
    withTable s k = k s.block.lut := by simp [withTable, h]

theorem fetch_idle {s : State} (h : s.inbox = []) : fetch s = .idle := by simp [fetch, h]

theorem fetch_reset {s : State} {rest : List (Event s.par.cfgWidth)} (h : s.inbox = .reset :: rest) :
    fetch s = .reset (takeEvent s rest) := by simp [fetch, h]

theorem fetch_request {s : State} {r : Request s.par.cfgWidth} {rest : List (Event s.par.cfgWidth)}
    (h : s.inbox = .request r :: rest) :
    fetch s = .request r.word (takeRequest s r.ports rest) := by simp [fetch, h]

/-- The three things a fetch can find. -/
theorem fetch_cases (s : State) :
    (s.inbox = [] ∧ fetch s = .idle)
      ∨ (∃ rest, s.inbox = .reset :: rest ∧ fetch s = .reset (takeEvent s rest))
      ∨ (∃ r rest, s.inbox = .request r :: rest
          ∧ fetch s = .request r.word (takeRequest s r.ports rest)) := by
  rcases h : s.inbox with _ | ⟨e, rest⟩
  · exact .inl ⟨rfl, fetch_idle h⟩
  · cases e with
    | reset => exact .inr (.inl ⟨rest, rfl, fetch_reset h⟩)
    | request r => exact .inr (.inr ⟨r, rest, rfl, fetch_request h⟩)

@[simp] theorem lut_zero {p : Params} (b : Block p) :
    b.lut 0 = { high := b.t0h.toNat, low := b.t0l.toNat } := rfl

@[simp] theorem lut_one {p : Params} (b : Block p) :
    b.lut 1 = { high := b.t1h.toNat, low := b.t1l.toNat } := rfl

@[simp] theorem lut_two {p : Params} (b : Block p) : b.lut 2 = { high := 0, low := b.tgap.toNat } := rfl

/-- The table depends on nothing but its five fields. -/
theorem lut_congr {p q : Params} {a : Block p} {b : Block q} (h1 : a.t1h.toNat = b.t1h.toNat)
    (h2 : a.t1l.toNat = b.t1l.toNat) (h3 : a.t0h.toNat = b.t0h.toNat) (h4 : a.t0l.toNat = b.t0l.toNat)
    (h5 : a.tgap.toNat = b.tgap.toNat) : a.lut = b.lut := by
  funext k
  fin_cases k
  · exact congrArg₂ Symbol.mk h3 h4
  · exact congrArg₂ Symbol.mk h1 h2
  · exact congrArg (Symbol.mk 0) h5

theorem throttleOutOfRange_iff (thr : Nat) : throttleOutOfRange thr = true ↔ 2047 < thr :=
  decide_eq_true_iff

/-- An accepted throttle is not narrowed: it fits its 11 bits. -/
theorem throttleOf_toNat {thr : Nat} (h : thr ≤ 2047) : (throttleOf thr).toNat = thr := by
  simp only [throttleOf, BitVec.toNat_ofNat]
  omega

end Sys2Proof.Machine
end

