-- ==== Sys2Proof/Laws/Mapper.lean ====
section
/-! SUPPORT. The symbol buffer: its length and each of its symbols. -/

namespace Sys2Proof.Machine

@[simp] theorem bitsym_true (lut : Fin 3 → Symbol) : bitsym lut true = lut 1 := rfl

@[simp] theorem bitsym_false (lut : Fin 3 → Symbol) : bitsym lut false = lut 0 := rfl

@[simp] theorem symbolsOf_length (lut : Fin 3 → Symbol) (F : BitVec 16) : (symbolsOf lut F).length = 17 := by
  simp [symbolsOf]

/-- A data symbol: the lookup of frame bit `15 - i`. -/
theorem symbolsOf_data (lut : Fin 3 → Symbol) (F : BitVec 16) {i : Nat} (h : i < 16) :
    (symbolsOf lut F)[i]? = some (bitsym lut (F.getLsbD (15 - i))) := by
  rw [symbolsOf, List.getElem?_append_left (by simpa using h)]
  simp [h]

/-- The reset symbol stands last. -/
theorem symbolsOf_gap (lut : Fin 3 → Symbol) (F : BitVec 16) : (symbolsOf lut F)[16]? = some (lut 2) := by
  simp [symbolsOf]

end Sys2Proof.Machine
end

