-- ==== Sys2Proof/Laws/PerInstr.lean ====
section
/-! SUPPORT. One statement about every instruction as syntax, a lemma per constructor. -/

namespace Sys2Proof.Laws.EncodingRow

/-- The instruction's row stands in the opcode table, and the word of a well-formed instruction belongs to that row, at
the defaults, which the table is written for. -/
def Statement (i : Instr) : Prop :=
  rowOf i ∈ opcodeRows ∧ (i.wf Params.default = true → (rowOf i).admits (encode Params.default i) = true)

theorem nop : Statement .nop := by unfold Statement; decide

theorem configure : Statement .configure := by unfold Statement; decide

theorem encode (thr : Nat) (tlm : Bool) : Statement (.encode thr tlm) := by
  refine ⟨by simp [opcodeRows, rowOf], fun h => ?_⟩
  have hw : thr < 2 ^ 16 := of_decide_eq_true h
  have hz : BitVec.ofNat 32 thr &&& 0xFFFE0000#32 = 0#32 := by
    apply BitVec.eq_of_getLsbD_eq
    intro k hk
    rcases Nat.lt_or_ge k 17 with h17 | h17
    · have : (0xFFFE0000#32).getLsbD k = false := by interval_cases k <;> rfl
      simp [this]
    · have : thr.testBit k = false :=
        Nat.testBit_lt_two_pow (lt_of_lt_of_le hw (Nat.pow_le_pow_right (by norm_num) (by omega)))
      simp [BitVec.getLsbD_ofNat, this]
  have hm : ∀ a b m : Word, (a ||| b) &&& m = (a &&& m) ||| (b &&& m) := fun a b m => by
    apply BitVec.eq_of_getLsbD_eq
    intro k _
    simp [Bool.and_or_distrib_right]
  simp only [Row.admits, rowOf, Sys2Proof.encode, beq_iff_eq, hm, hz]
  cases tlm <;> decide

end Sys2Proof.Laws.EncodingRow
end

