-- ==== Sys2Proof/Laws/Timing.lean ====
section
/-! SUPPORT. The sub-computations of CONFIGURE: high counts stay within the period, the checks of R87 all pass exactly on
acceptable operands, and the table written then meets R27. -/

namespace Sys2Proof.Machine

theorem highTicks_le {num den : Nat} (h : num < den) (period : Nat) : highTicks period num den ≤ period := by
  unfold highTicks
  exact Nat.div_le_of_le_mul (by rw [Nat.mul_comm den]; exact Nat.mul_le_mul_left _ h.le)

theorem t1h_le_period (p : Params) (R B U : Nat) : (timingOf p R B U).t1h ≤ (timingOf p R B U).period :=
  highTicks_le p.duty1_lt _

theorem t0h_le_period (p : Params) (R B U : Nat) : (timingOf p R B U).t0h ≤ (timingOf p R B U).period :=
  highTicks_le p.duty0_lt _

theorem shortest_lt_iff (t : Timing) (m : Nat) :
    t.shortest < m ↔ t.t1h < m ∨ t.t1l < m ∨ t.t0h < m ∨ t.t0l < m := by
  simp only [Timing.shortest]
  omega

theorem lt_longest_iff (t : Timing) (m : Nat) :
    m < t.longest ↔ m < t.t1h ∨ m < t.t1l ∨ m < t.t0h ∨ m < t.t0l := by
  simp only [Timing.longest]
  omega

/-- Checks 4 to 8 of R87 all pass exactly when every phase is in range, the two high counts differ and the gap is in
range. -/
theorem timingFailure_eq_none (p : Params) (t : Timing) :
    timingFailure p t = none
      ↔ (∀ d ∈ [t.t1h, t.t1l, t.t0h, t.t0l], p.minPhaseTicks ≤ d ∧ d ≤ p.durMax) ∧ t.t0h < t.t1h
        ∧ p.minGapTicks ≤ t.tgap ∧ t.tgap ≤ p.durMax := by
  simp only [timingFailure, shortest_lt_iff, lt_longest_iff, List.forall_mem_cons, List.not_mem_nil,
    false_implies, implies_true, and_true]
  split_ifs <;> simp only [false_iff, true_iff] <;> omega

/-- The checks of R87 all pass exactly on acceptable operands. -/
theorem firstFailure_eq_none (p : Params) (R B U : Nat) :
    firstFailure p R B U = none ↔ Acceptable p R B U := by
  unfold firstFailure Acceptable
  split_ifs with h1 h2 h3
  · simp [h1]
  · simp [h2]
  · simp only [false_iff]
    omega
  · rw [timingFailure_eq_none]
    simp only [timingOf, periodTicks, highTicks, gapTicks]
    have : 0 < R ∧ 0 < B ∧ B ≤ R := by omega
    tauto

/-- The table CONFIGURE writes is the one of its operands and meets R27. -/
theorem configuredBlock_ok {p : Params} {q : Ports p.cfgWidth}
    (h : firstFailure p q.resolutionHz.toNat q.bitRateHz.toNat q.postDelayUs.toNat = none) :
    TableFromConfig p (configuredBlock p q h) ∧ TableOk p (configuredBlock p q h) := by
  have ha := (firstFailure_eq_none _ _ _ _).1 h
  have h1 := t1h_le_period p q.resolutionHz.toNat q.bitRateHz.toNat q.postDelayUs.toNat
  have h0 := t0h_le_period p q.resolutionHz.toNat q.bitRateHz.toNat q.postDelayUs.toNat
  simp only [TableFromConfig, TableOk, configuredBlock_cfgResHz, configuredBlock_cfgBitRateHz,
    configuredBlock_cfgPostDelayUs, configuredBlock_period, configuredBlock_t1h, configuredBlock_t1l,
    configuredBlock_t0h, configuredBlock_t0l, configuredBlock_tgap]
  simp only [timingOf] at h1 h0 ⊢
  obtain ⟨_, _, _, hd, hlt, hg⟩ := id ha
  exact ⟨⟨ha, rfl, rfl, rfl, rfl⟩, Nat.add_sub_cancel' h1, Nat.add_sub_cancel' h0, hlt, hd, hg⟩

end Sys2Proof.Machine
end

