-- ==== Sys2Proof/Laws/Step.lean ====
section
/-! SUPPORT. Each meaning as an equation per case, and what a step can be: the lemmas from which statements about steps
and runs are derived without unfolding the meanings again. -/

namespace Sys2Proof.Machine

@[simp] theorem exec_nop (s : State) : exec .nop s = execNop s := rfl

@[simp] theorem exec_configure (s : State) : exec .configure s = execConfigure s := rfl

@[simp] theorem exec_encode (thr : Nat) (tlm : Bool) (s : State) :
    exec (.encode thr tlm) s = execEncode thr tlm s := rfl

theorem execConfigure_ready {s : State} (h : s.block.phase = .ready) :
    execConfigure s = raise .alreadyConfigured 0#4 s := by simp [execConfigure, h]

theorem execConfigure_failed {s : State} (h : s.block.phase = .unconfigured) {e : CfgReason}
    (he : firstFailure s.par (portRes s) (portRate s) (portDelay s) = some e) :
    execConfigure s = raise .configurationError e.code s := by
  unfold execConfigure
  simp only [h]
  split
  · next e' he' => rw [Option.some.inj (he.symm.trans he')]
  · next hn => exact absurd (hn.symm.trans he) (by simp)

theorem execConfigure_accepted {s : State} (h : s.block.phase = .unconfigured)
    (ha : firstFailure s.par (portRes s) (portRate s) (portDelay s) = none) :
    execConfigure s
      = respond .ok 0#4 none none (writeConfig s ha) := by
  unfold execConfigure
  simp only [h]
  split
  · next e he => exact absurd (ha.symm.trans he) (by simp)
  · rfl

theorem execEncode_unconfigured {s : State} (h : s.block.phase = .unconfigured) (thr : Nat) (tlm : Bool) :
    execEncode thr tlm s = raise .notReady 0#4 s := by simp [execEncode, h]

theorem execEncode_rejected {s : State} (h : s.block.phase = .ready) {thr : Nat} (ht : 2047 < thr) (tlm : Bool) :
    execEncode thr tlm s = raise .invalidThrottle 0#4 s := by
  simp [execEncode, h, (throttleOutOfRange_iff thr).2 ht]

theorem execEncode_accepted {s : State} (h : s.block.phase = .ready) {thr : Nat} (ht : thr ≤ 2047) (tlm : Bool) :
    execEncode thr tlm s = answerFrame (frameOf (throttleOf thr) tlm) s.block.lut s := by
  have : throttleOutOfRange thr = false := by
    rw [Bool.eq_false_iff, ne_eq, throttleOutOfRange_iff]
    omega
  simp [execEncode, h, this, withTable_ready h]

theorem step_idle {s : State} (h : s.inbox = []) : step s = execIdle s := by simp [step, fetch_idle h]

theorem step_reset {s : State} {rest : List (Event s.par.cfgWidth)} (h : s.inbox = .reset :: rest) :
    step s = execReset (takeEvent s rest) := by simp [step, fetch_reset h]

theorem step_request {s : State} {r : Request s.par.cfgWidth} {rest : List (Event s.par.cfgWidth)}
    (h : s.inbox = .request r :: rest) :
    step s = serve r.word (takeRequest s r.ports rest) := by simp [step, fetch_request h]

theorem serve_ok {w : Word} {i : Instr} {s : State} (h : decode s.par w = .ok i) : serve w s = exec i s := by
  simp [serve, h]

theorem serve_error {w : Word} {e : Reserved} {s : State} (h : decode s.par w = .error e) :
    serve w s = execIllegal s := by
  simp [serve, h]

/-- Everything a meaning can do: hand out one response, and write the block in one case only. -/
theorem exec_inversion (i : Instr) (s : State) :
    ∃ r : Response, exec i s = .next (handOut r s)
      ∨ (i = .configure ∧ s.block.phase = .unconfigured ∧ r.status = .ok
          ∧ ∃ h : firstFailure s.par (portRes s) (portRate s) (portDelay s) = none,
              exec i s = .next (handOut r (writeConfig s h))) := by
  cases i with
  | nop => exact ⟨_, .inl rfl⟩
  | configure =>
    cases hp : s.block.phase with
    | ready => exact ⟨_, .inl (execConfigure_ready hp)⟩
    | unconfigured =>
      rcases (firstFailure s.par (portRes s) (portRate s) (portDelay s)).eq_none_or_eq_some with hf | ⟨e, hf⟩
      · exact ⟨_, .inr ⟨rfl, rfl, rfl, hf, execConfigure_accepted hp hf⟩⟩
      · exact ⟨_, .inl (execConfigure_failed hp hf)⟩
  | encode thr tlm =>
    cases hp : s.block.phase with
    | unconfigured => exact ⟨_, .inl (execEncode_unconfigured hp thr tlm)⟩
    | ready =>
      rcases Nat.lt_or_ge 2047 thr with ht | ht
      · exact ⟨_, .inl (execEncode_rejected hp ht tlm)⟩
      · exact ⟨_, .inl (execEncode_accepted hp ht tlm)⟩

/-- Everything a step that answers a next state can have been: one case per outcome of R166, a reset, or nothing. -/
inductive StepCase (s : State) : State → Prop where
  | idle (h : s.inbox = []) : StepCase s s
  | reset (rest : List (Event s.par.cfgWidth)) (h : s.inbox = .reset :: rest) :
      StepCase s { s with block := Block.reset s.par, inbox := rest }
  | illegal (q : Request s.par.cfgWidth) (rest : List (Event s.par.cfgWidth))
      (e : Reserved) (h : s.inbox = .request q :: rest)
      (hd : decode s.par q.word = .error e) :
      StepCase s { s with
        ports := q.ports
        inbox := rest
        outbox := s.outbox ++ [⟨.illegalRequest, 0#4, none, none⟩] }
  | nop (q : Request s.par.cfgWidth) (rest : List (Event s.par.cfgWidth))
      (h : s.inbox = .request q :: rest) (hd : decode s.par q.word = .ok .nop) :
      StepCase s { s with
        ports := q.ports
        inbox := rest
        outbox := s.outbox ++ [⟨.ok, 0#4, none, none⟩] }
  | notReady (q : Request s.par.cfgWidth) (rest : List (Event s.par.cfgWidth))
      (thr : Nat) (tlm : Bool) (h : s.inbox = .request q :: rest)
      (hd : decode s.par q.word = .ok (.encode thr tlm)) (hp : s.block.phase = .unconfigured) :
      StepCase s { s with
        ports := q.ports
        inbox := rest
        outbox := s.outbox ++ [⟨.notReady, 0#4, none, none⟩] }
  | invalidThrottle (q : Request s.par.cfgWidth) (rest : List (Event s.par.cfgWidth))
      (thr : Nat) (tlm : Bool) (h : s.inbox = .request q :: rest)
      (hd : decode s.par q.word = .ok (.encode thr tlm)) (hp : s.block.phase = .ready) (ht : 2047 < thr) :
      StepCase s { s with
        ports := q.ports
        inbox := rest
        outbox := s.outbox ++ [⟨.invalidThrottle, 0#4, none, none⟩] }
  | encoded (q : Request s.par.cfgWidth) (rest : List (Event s.par.cfgWidth))
      (thr : Nat) (tlm : Bool) (h : s.inbox = .request q :: rest)
      (hd : decode s.par q.word = .ok (.encode thr tlm)) (hp : s.block.phase = .ready) (ht : thr ≤ 2047) :
      StepCase s { s with
        ports := q.ports
        inbox := rest
        outbox := s.outbox ++ [⟨.ok, 0#4, some (frameOf (throttleOf thr) tlm),
          some (symbolsOf s.block.lut (frameOf (throttleOf thr) tlm))⟩] }
  | alreadyConfigured (q : Request s.par.cfgWidth) (rest : List (Event s.par.cfgWidth)) (h : s.inbox = .request q :: rest)
      (hd : decode s.par q.word = .ok .configure) (hp : s.block.phase = .ready) :
      StepCase s { s with
        ports := q.ports
        inbox := rest
        outbox := s.outbox ++ [⟨.alreadyConfigured, 0#4, none, none⟩] }
  | configurationError (q : Request s.par.cfgWidth) (rest : List (Event s.par.cfgWidth))
      (e : CfgReason) (h : s.inbox = .request q :: rest)
      (hd : decode s.par q.word = .ok .configure) (hp : s.block.phase = .unconfigured)
      (he : firstFailure s.par q.ports.resolutionHz.toNat q.ports.bitRateHz.toNat q.ports.postDelayUs.toNat
        = some e) :
      StepCase s { s with
        ports := q.ports
        inbox := rest
        outbox := s.outbox ++ [⟨.configurationError, e.code, none, none⟩] }
  | configured (q : Request s.par.cfgWidth) (rest : List (Event s.par.cfgWidth)) (h : s.inbox = .request q :: rest)
      (hd : decode s.par q.word = .ok .configure) (hp : s.block.phase = .unconfigured)
      (ha : firstFailure s.par q.ports.resolutionHz.toNat q.ports.bitRateHz.toNat q.ports.postDelayUs.toNat
        = none) :
      StepCase s { s with
        block := configuredBlock s.par q.ports ha
        ports := q.ports
        inbox := rest
        outbox := s.outbox ++ [⟨.ok, 0#4, none, none⟩] }

/-- The inversion of a step. -/
theorem step_cases {s t : State} (h : step s = .next t) : StepCase s t := by
  rcases fetch_cases s with ⟨hi, _⟩ | ⟨rest, hi, _⟩ | ⟨q, rest, hi, _⟩
  · rw [step_idle hi] at h
    cases h
    exact .idle hi
  · rw [step_reset hi] at h
    cases h
    exact .reset rest hi
  · rw [step_request hi] at h
    cases hd : decode s.par q.word with
    | error e =>
      rw [serve_error (by exact hd)] at h
      cases h
      exact .illegal q rest e hi hd
    | ok i =>
      rw [serve_ok (by exact hd)] at h
      cases i with
      | nop =>
        cases h
        exact .nop q rest hi hd
      | encode thr tlm =>
        change execEncode thr tlm _ = _ at h
        cases hp : s.block.phase with
        | unconfigured =>
          rw [execEncode_unconfigured (by exact hp)] at h
          cases h
          exact .notReady q rest thr tlm hi hd hp
        | ready =>
          rcases Nat.lt_or_ge 2047 thr with ht | ht
          · rw [execEncode_rejected (by exact hp) ht] at h
            cases h
            exact .invalidThrottle q rest thr tlm hi hd hp ht
          · rw [execEncode_accepted (by exact hp) ht] at h
            cases h
            exact .encoded q rest thr tlm hi hd hp ht
      | configure =>
        change execConfigure _ = _ at h
        cases hp : s.block.phase with
        | ready =>
          rw [execConfigure_ready (by exact hp)] at h
          cases h
          exact .alreadyConfigured q rest hi hd hp
        | unconfigured =>
          cases hf : firstFailure s.par q.ports.resolutionHz.toNat q.ports.bitRateHz.toNat
              q.ports.postDelayUs.toNat with
          | some e =>
            rw [execConfigure_failed (by exact hp) hf] at h
            cases h
            exact .configurationError q rest e hi hd hp hf
          | none =>
            rw [execConfigure_accepted (by exact hp) hf] at h
            cases h
            exact .configured q rest hi hd hp hf

end Sys2Proof.Machine
end

