-- ==== Sys2Proof/Tests/Slice0.lean ====
section
/-! SUPPORT. Tests of the model's text. Expected values are those of the spec: R72, R91, R92, R109, R129 and the vectors of
95_test_vectors.md (CF, EN, RS rows and tables 2.2, 2.3, 2.4). The `witness_` theorems show that the hypotheses of each
statement can be met. -/

namespace Sys2Proof.Tests

open Sys2Proof Sys2Proof.Machine

/-! ### Helpers -/

/-- The next state, where there is one. -/
def after : Result → Option State
  | .next t => some t
  | .fault _ => none
  | .refused _ => none

/-- Ports that carry three numbers, each of its width. -/
def portsOf (w R B U : Nat) : Ports w :=
  { resolutionHz := BitVec.ofNat w R, bitRateHz := BitVec.ofNat w B, postDelayUs := BitVec.ofNat w U }

/-- An UNCONFIGURED block with these parameters and these numbers on its ports. -/
def freshAt (p : Params) (R B U : Nat) : State :=
  { par := p, block := Block.reset p, ports := portsOf p.cfgWidth R B U, inbox := [], outbox := [] }

/-- An UNCONFIGURED block with these numbers on its ports, at the default parameters. -/
def fresh (R B U : Nat) : State := freshAt Params.default R B U

/-- The registers of configuration CF1. -/
def cf1Block : Block Params.default :=
  { phase := .ready, cfgResHz := 40000000, cfgBitRateHz := 600000, cfgPostDelayUs := 30, period := 66,
    t1h := 49, t1l := 17, t0h := 24, t0l := 42, tgap := 1200 }

/-- A block that is READY with the table of CF1. -/
def cf1 : State := { State.reset with block := cf1Block }

/-- The state with one request word presented, the ports as they stand. -/
def asking (w : Word) (s : State) : State := { s with inbox := [.request { word := w, ports := s.ports }] }

/-- The response of the step that answers a request word. -/
def answer (w : Word) (s : State) : Option Response := (after (step (asking w s))).bind (fun t => t.outbox.getLast?)

/-- The phase and the numbers in a block's registers: resolution, rate, delay, PERIOD, T1H, T1L, T0H, T0L, TGAP. -/
abbrev Registers := Phase × List Nat

/-- What a block's registers hold. -/
def registers {p : Params} (b : Block p) : Registers :=
  (b.phase, [b.cfgResHz.toNat, b.cfgBitRateHz.toNat, b.cfgPostDelayUs.toNat, b.period.toNat, b.t1h.toNat, b.t1l.toNat,
    b.t0h.toNat, b.t0l.toNat, b.tgap.toNat])

/-- The registers after the step that answers a request word. -/
def blockAfter (w : Word) (s : State) : Option Registers :=
  (after (step (asking w s))).map (fun t => registers t.block)

/-- A response without data. -/
def plain (st : Status) (reason : BitVec 4) : Response :=
  { status := st, reason := reason, frame := none, symbols := none }

/-- A parameter set whose logical-1 and logical-0 high counts collapse at a period of 5. -/
def closeDuties : Params where
  cfgWidth := 32
  thrWidth := 16
  duty1Num := 1
  duty1Den := 2
  duty0Num := 2
  duty0Den := 5
  minPhaseTicks := 1
  durWidth := 15
  minGapTicks := 1
  usPerS := 1000000
  ok := by decide

/-- A parameter set with a throttle field of 12 bits and ports of 24 bits: TLM is then bit 12 and RSV bits 29 to 13. -/
def narrow : Params where
  toRawParams := { Params.default.toRawParams with thrWidth := 12, cfgWidth := 24 }
  ok := by decide

/-! ### Parameters and well-formedness: each check refuses an ill-formed term -/

theorem test_default_parameters_pass : (Params.default.toRawParams.check).isSome = true := by decide

theorem test_parameters_refused_each :
    let d := Params.default.toRawParams
    [{ d with duty1Den := 0 }, { d with duty0Den := 0 }, { d with duty1Num := 4 }, { d with duty0Num := 8 },
     { d with duty0Num := 6 }, { d with minPhaseTicks := 0 }, { d with minGapTicks := 0 }, { d with durWidth := 0 },
     { d with durWidth := 33 }, { d with usPerS := 0 }, { d with thrWidth := 30 },
     { d with cfgWidth := 33, durWidth := 32 }].all (fun p => p.check == none) = true := by decide

theorem test_wellFormed_throttle_boundary :
    (Instr.encode 65535 true).wf Params.default = true ∧ (Instr.encode 65536 true).wf Params.default = false := by decide

/-! ### Decoding: words written out bit by bit from R62 -/

/-- `OP = 00`, thirty zeros. -/
theorem test_decode_nop : decode Params.default 0b00000000000000000000000000000000#32 = .ok .nop := by decide

/-- `OP = 01`, thirty zeros. -/
theorem test_decode_configure : decode Params.default 0b01000000000000000000000000000000#32 = .ok .configure := by
  decide

/-- `OP = 10`, thirteen zeros, `T = 1`, `THR = 1000 = 0b0000001111101000`. -/
theorem test_decode_encode :
    decode Params.default 0b10000000000000010000001111101000#32 = .ok (.encode 1000 true) := by decide

/-- The ILLEGAL rows of R72 and EN10 to EN17. -/
theorem test_decode_reserved :
    decode Params.default 0x80020000#32 = .error .encodeBits
      ∧ decode Params.default 0xA0000000#32 = .error .encodeBits
      ∧ decode Params.default 0x8002FFFF#32 = .error .encodeBits
      ∧ decode Params.default 0x00000001#32 = .error .nopBits
      ∧ decode Params.default 0x40000001#32 = .error .configureBits
      ∧ decode Params.default 0xC0000000#32 = .error .opThree
      ∧ decode Params.default 0xFFFFFFFF#32 = .error .opThree := by decide

/-- R70 and R72. -/
theorem test_encode_words :
    encode Params.default .nop = 0x00000000#32 ∧ encode Params.default .configure = 0x40000000#32
      ∧ encode Params.default (.encode 2047 true) = 0x800107FF#32
      ∧ encode Params.default (.encode 65535 false) = 0x8000FFFF#32 := by decide

/-- R62 with a throttle field of 12 bits, `OP = 10`, seventeen zeros, `T = 1`, `THR = 2047 = 0b011111111111` (log 6). -/
theorem test_decode_narrow :
    decode narrow 0b10000000000000000001011111111111#32 = .ok (.encode 2047 true)
      ∧ encode narrow (.encode 2047 true) = 0b10000000000000000001011111111111#32
      ∧ decode narrow 0b10000000000000000010000000000000#32 = .error .encodeBits
      ∧ (Instr.encode 4095 false).wf narrow = true ∧ (Instr.encode 4096 false).wf narrow = false := by decide

/-- "no two rows overlap": a word of one row differs from every other row's pattern under both masks. -/
theorem test_rows_disjoint :
    opcodeRows.Pairwise (fun a b => a.pattern &&& (a.mask &&& b.mask) ≠ b.pattern &&& (a.mask &&& b.mask)) := by
  decide

theorem test_table_word_runs_first_after_reset :
    decodeTableWord 32 0x800003E8 = some (.encode 1000 false)
      ∧ (after (step (State.reset.withFetchWord 32 0x800003E8))).map (fun t => t.outbox)
          = some [plain .notReady 0#4] := by decide

/-! ### Checksum and frames -/

/-- Table 2.2. -/
theorem test_checksum_vectors :
    [(0x000#12, 0x0#4), (0x7D0#12, 0xA#4), (0x7D1#12, 0xB#4), (0x7C1#12, 0xA#4), (0x7D8#12, 0x2#4), (0x750#12, 0x2#4),
     (0xFD0#12, 0x2#4), (0xFFF#12, 0xF#4), (0xFFE#12, 0xE#4), (0xAAA#12, 0xA#4), (0x555#12, 0x5#4), (0x111#12, 0x1#4),
     (0x110#12, 0x0#4)].all (fun v => csum v.1 == v.2) = true := by decide

/-- Table 2.3. -/
theorem test_frame_vectors :
    [(0, false, 0x0000#16), (0, true, 0x0011#16), (1, true, 0x0033#16), (47, true, 0x05FA#16), (48, false, 0x0606#16),
     (1000, false, 0x7D0A#16), (1000, true, 0x7D1B#16), (1024, false, 0x8008#16), (1046, false, 0x82C6#16),
     (1365, false, 0xAAAA#16), (682, true, 0x5555#16), (1500, true, 0xBB99#16), (2000, false, 0xFA05#16),
     (2047, false, 0xFFEE#16), (2047, true, 0xFFFF#16)].all (fun v => frameOf (throttleOf v.1) v.2.1 == v.2.2)
      = true := by decide

/-- Table 2.4: the inverse mapping at CF1 and the length of the buffer. -/
theorem test_buffer_vectors :
    frameOfSymbols cf1Block.lut (symbolsOf cf1Block.lut 0x7D0A#16) = some 0x7D0A#16
      ∧ bufferTicks (symbolsOf cf1Block.lut 0x7D0A#16) = 2256 := by decide

/-! ### The instructions, one step each -/

/-- EN13, in either phase. -/
theorem test_nop :
    answer 0x00000000#32 (fresh 1 2 3) = some (plain .ok 0#4) ∧ answer 0x00000000#32 cf1 = some (plain .ok 0#4)
      ∧ blockAfter 0x00000000#32 cf1 = some (registers cf1Block) := by decide

/-- The OK rows of table 2.1: R, B, U; P, T1H, T1L, T0H, T0L, TGAP. -/
theorem test_configure_accepted :
    [(40000000, 600000, 30, 66, 49, 17, 24, 42, 1200), (80000000, 300000, 50, 266, 199, 67, 99, 167, 4000),
     (80000000, 600000, 30, 133, 99, 34, 49, 84, 2400), (40000000, 150000, 50, 266, 199, 67, 99, 167, 2000),
     (40000000, 1200000, 20, 33, 24, 9, 12, 21, 800), (10000000, 600000, 30, 16, 12, 4, 6, 10, 300),
     (1000000, 300000, 2, 3, 2, 1, 1, 2, 2), (8000000, 2000000, 5, 4, 3, 1, 1, 3, 40),
     (43690, 1, 100, 43690, 32767, 10923, 16383, 27307, 4), (40000000, 600000, 819, 66, 49, 17, 24, 42, 32760)].all
      (fun (R, B, U, P, a, b, c, d, g) =>
        answer 0x40000000#32 (fresh R B U) == some (plain .ok 0#4)
          && blockAfter 0x40000000#32 (fresh R B U)
              == some (.ready, [R, B, U, P, a, b, c, d, g])) = true := by decide

/-- R80 to R88 by hand at a parameter set with ports of 24 bits: the registers are of that width (R7, R9). -/
theorem test_configure_narrow :
    blockAfter 0x40000000#32 (freshAt narrow 16000000 600000 30)
      = some (.ready, [16000000, 600000, 30, 26, 19, 7, 9, 17, 480]) := by decide

/-- The failing rows of table 2.1, which write no register, and CF21, CF22. -/
theorem test_configure_failed :
    [(0, 600000, 30, 1#4), (0, 0, 0, 1#4), (40000000, 0, 30, 2#4), (1000000, 2000000, 30, 3#4),
     (40000000, 40000000, 30, 4#4), (2, 1, 1, 4#4), (43691, 1, 100, 6#4), (3, 1, 1, 7#4), (40000000, 600000, 0, 7#4),
     (40000000, 600000, 820, 8#4)].all
      (fun (R, B, U, n) =>
        answer 0x40000000#32 (fresh R B U) == some (plain .configurationError n)
          && blockAfter 0x40000000#32 (fresh R B U) == some (registers (Block.reset Params.default))) = true
      ∧ answer 0x40000000#32 { cf1 with ports := portsOf 32 80000000 300000 50 } = some (plain .alreadyConfigured 0#4)
      ∧ answer 0x40000000#32 { cf1 with ports := portsOf 32 0 0 0 } = some (plain .alreadyConfigured 0#4)
      ∧ blockAfter 0x40000000#32 { cf1 with ports := portsOf 32 0 0 0 } = some (registers cf1Block) := by decide

/-- EN2: R129's symbols of `0x7D0A` at the worked table. -/
theorem test_encode_accepted :
    let A : Symbol := { high := 24, low := 42 }
    let B : Symbol := { high := 49, low := 17 }
    answer 0x800003E8#32 cf1
      = some { status := .ok, reason := 0#4, frame := some 0x7D0A#16,
               symbols := some [A, B, B, B, B, B, A, B, A, A, A, A, B, A, B, A, { high := 0, low := 1200 }] }
      ∧ blockAfter 0x800003E8#32 cf1 = some (registers cf1Block) := by decide

/-- EN5 to EN9. -/
theorem test_encode_rejected :
    answer 0x80000800#32 cf1 = some (plain .invalidThrottle 0#4)
      ∧ answer 0x80010800#32 cf1 = some (plain .invalidThrottle 0#4)
      ∧ answer 0x8000FFFF#32 cf1 = some (plain .invalidThrottle 0#4)
      ∧ answer 0x800003E8#32 State.reset = some (plain .notReady 0#4)
      ∧ answer 0x80000FA0#32 State.reset = some (plain .notReady 0#4) := by decide

/-- EN10, EN11, EN17: decode outranks phase, throttle and ALREADY_CONFIGURED. -/
theorem test_illegal :
    answer 0x8002FFFF#32 State.reset = some (plain .illegalRequest 0#4)
      ∧ answer 0x80020000#32 cf1 = some (plain .illegalRequest 0#4)
      ∧ answer 0x40000001#32 cf1 = some (plain .illegalRequest 0#4)
      ∧ blockAfter 0x40000001#32 cf1 = some (registers cf1Block) := by decide

/-- RS1 and RS4. -/
theorem test_reset_event :
    (after (step { cf1 with inbox := [.reset] })).map (fun t => (t.block.phase, ready t, t.outbox))
        = some (.unconfigured, 0#1, [])
      ∧ (after (step { State.reset with inbox := [.reset] })).map (fun t => t.block.phase) = some .unconfigured := by
  decide

/-- Presenting to instance 1 and stepping it leaves instance 0 (P4); a third instance does not exist. -/
theorem test_system :
    (match System.stepInstance 1 (System.presentTo [cf1, cf1] 1 .reset) with
      | .next sys => sys.map (fun t => t.block.phase) == [.ready, .unconfigured]
      | _ => false) = true
      ∧ (match System.stepInstance 2 [cf1, cf1] with
          | .fault f => f == .noSuchInstance
          | _ => false) = true := by decide

/-! ### Witnesses: the hypotheses of each statement can be met -/

theorem witness_DecodeOfEncodeIsIdentity :
    Instr.nop.wf Params.default = true ∧ Instr.configure.wf Params.default = true
      ∧ (Instr.encode 65535 true).wf Params.default = true ∧ (Instr.encode 0 false).wf Params.default = true
      ∧ (Instr.encode 4095 true).wf narrow = true := by decide

theorem witness_EncodeOfDecodeIsIdentity :
    decode Params.default 0x00000000#32 = .ok .nop ∧ decode Params.default 0x40000000#32 = .ok .configure
      ∧ decode Params.default 0x8001FFFF#32 = .ok (.encode 65535 true) := by decide

/-- The words at either end of the ENCODE row, at the default width and another. -/
theorem witness_DecodeFollowsOpcodeTable :
    Params.default.thrWidth = 16 ∧ decode Params.default 0x80000000#32 = .ok (.encode 0 false)
      ∧ decode Params.default 0x8001FFFF#32 = .ok (.encode 65535 true)
      ∧ decode narrow 0x80001FFF#32 = .ok (.encode 4095 true) := by decide

theorem witness_ReservedWordsAreRejected :
    Params.default.thrWidth = 16 ∧ decode Params.default 0x80020000#32 = .error .encodeBits
      ∧ decode Params.default 0x3FFFFFFF#32 = .error .nopBits ∧ decode narrow 0x80002000#32 = .error .encodeBits := by
  decide

theorem witness_EncodingCounts : Params.default.thrWidth = 16 := by decide

theorem witness_StepRunsDecodedRequest :
    ∃ (s : State) (r : Request s.par.cfgWidth) (rest : List (Event s.par.cfgWidth)) (i : Instr),
      s.inbox = .request r :: rest ∧ decode s.par r.word = .ok i :=
  ⟨asking 0x800003E8#32 cf1, ⟨0x800003E8#32, cf1.ports⟩, [], .encode 1000 false, rfl, by decide⟩

theorem witness_ReservedWordAnswersIllegalRequest :
    (asking 0xC0000000#32 cf1).inbox = [.request { word := 0xC0000000#32, ports := cf1.ports }]
      ∧ (0xC0000000#32).toNat / 2 ^ 30 = 3
      ∧ (0x00000001#32).toNat / 2 ^ 30 ≤ 1 ∧ (0x00000001#32).toNat % 2 ^ 30 ≠ 0
      ∧ (0x7FFFFFFF#32).toNat / 2 ^ 30 ≤ 1 ∧ (0x7FFFFFFF#32).toNat % 2 ^ 30 ≠ 0
      ∧ (0x80020000#32).toNat / 2 ^ 30 = 2
      ∧ (0x80020000#32).toNat % 2 ^ 30 / 2 ^ (cf1.par.thrWidth + 1) ≠ 0 := by decide

theorem witness_ResetEventClearsThePhase : ({ cf1 with inbox := [.reset] } : State).inbox = [.reset] := by decide

theorem witness_IdleStepChangesNothing : cf1.inbox = [] := by decide

theorem witness_NopAnswersOkAndChangesNothing :
    ((0#32).toNat < 2 ^ 30 ∧ 0#32 = 0#32) ∧ (0x3FFFFFFF#32).toNat < 2 ^ 30 ∧ 0x3FFFFFFF#32 ≠ 0#32 := by decide

/-- The smallest and the largest accepted period and the largest gap (R91). -/
theorem witness_ConfigureWritesTheTable :
    [(1000000, 300000, 2), (43690, 1, 100), (40000000, 600000, 819)].all
      (fun (R, B, U) =>
        (fresh R B U).block.phase == .unconfigured
          && R == (fresh R B U).ports.resolutionHz.toNat && B == (fresh R B U).ports.bitRateHz.toNat
          && U == (fresh R B U).ports.postDelayUs.toNat
          && decide (Acceptable (fresh R B U).par R B U)) = true := by decide

/-- One set of operands for each of the eight clauses, at a boundary where there is one (CF9 to CF20); the fifth at
duties 1/2 and 2/5 and a period of 5. -/
theorem witness_ConfigureReportsFirstFailingCheck :
    [(Params.default, 0, 0, 0, 1#4), (Params.default, 1, 0, 0, 2#4), (Params.default, 1, 2, 0, 3#4),
     (Params.default, 2, 1, 0, 4#4), (closeDuties, 5, 1, 0, 5#4), (Params.default, 43691, 1, 0, 6#4),
     (Params.default, 43690, 1, 0, 7#4), (Params.default, 40000000, 600000, 820, 8#4)].all
      (fun (p, R, B, U, n) =>
        let s := freshAt p R B U
        let P := R / B
        let T1 := P * p.duty1Num / p.duty1Den
        let T0 := P * p.duty0Num / p.duty0Den
        let G := R * U / p.usPerS
        let phases := [T1, P - T1, T0, P - T0]
        let early := R != 0 && B != 0 && decide (B ≤ R)
        let long := phases.all (fun d => decide (p.minPhaseTicks ≤ d))
        let fits := phases.all (fun d => decide (d ≤ p.durMax))
        s.block.phase == .unconfigured && R == s.ports.resolutionHz.toNat && B == s.ports.bitRateHz.toNat
          && U == s.ports.postDelayUs.toNat
          && (match n.toNat with
              | 1 => R == 0
              | 2 => R != 0 && B == 0
              | 3 => R != 0 && B != 0 && decide (R < B)
              | 4 => early && !long
              | 5 => early && long && decide (T1 ≤ T0)
              | 6 => early && long && decide (T0 < T1) && !fits
              | 7 => early && long && decide (T0 < T1) && fits && decide (G < p.minGapTicks)
              | _ => early && long && decide (T0 < T1) && fits && decide (p.minGapTicks ≤ G)
                      && decide (p.durMax < G))) = true := by decide

theorem witness_ConfigureWhileReadyIsTurnedAway : cf1.block.phase = .ready := by decide

theorem witness_DefaultParametersAcceptedRange :
    (fresh 3 1 1).par = Params.default ∧ (fresh 3 1 1).block.phase = .unconfigured
      ∧ 3 = (fresh 3 1 1).ports.resolutionHz.toNat ∧ 1 = (fresh 3 1 1).ports.bitRateHz.toNat
      ∧ 1 = (fresh 3 1 1).ports.postDelayUs.toNat := by decide

theorem witness_DefaultParametersNeverCollapse :
    ∃ (s t : State) (r : Response),
      s.par = Params.default ∧ exec .configure s = .next t ∧ t.outbox = s.outbox ++ [r] :=
  ⟨fresh 2 1 1, { fresh 2 1 1 with outbox := [plain .configurationError 4#4] }, plain .configurationError 4#4,
    rfl, rfl, rfl⟩

theorem witness_EncodeFollowsItsPseudocode :
    Params.default.thrWidth = 16 ∧ 0x8001FFFF#32 &&& 0xFFFE0000#32 = 0x80000000#32 ∧ State.reset.block.phase = .unconfigured
      ∧ (cf1.block.phase = .ready ∧ 2047 < 2048) ∧ (cf1.block.phase = .ready ∧ 2047 ≤ 2047) := by decide

theorem witness_AcceptedFrameLayout : cf1.block.phase = .ready ∧ 2047 ≤ 2047 ∧ 0 ≤ 2047 := by decide

theorem witness_ThrottleCheckedNeverClamped : cf1.block.phase = .ready ∧ 2047 < 2048 ∧ 2047 ≤ 2047 := by decide

theorem witness_SideEffectsAreConfiguresAlone :
    (∃ s t : State, exec .nop s = .next t ∧ Instr.nop ≠ .configure)
      ∧ (∃ (s t : State) (r : Response), exec .configure s = .next t ∧ t.outbox = s.outbox ++ [r] ∧ r.status ≠ .ok)
      ∧ ∃ s t u : State, exec (.encode 1000 false) s = .next t ∧ exec (.encode 1000 false) t = .next u :=
  ⟨⟨cf1, _, rfl, by decide⟩,
   ⟨cf1, { cf1 with outbox := [plain .alreadyConfigured 0#4] }, plain .alreadyConfigured 0#4, rfl, rfl, by decide⟩,
   ⟨cf1, _, _, rfl, rfl⟩⟩

theorem witness_FrameOfEveryInstruction :
    ∃ t u v : State, exec .nop cf1 = .next t ∧ exec .configure (fresh 40000000 600000 30) = .next u
      ∧ exec (.encode 1000 false) cf1 = .next v := ⟨_, _, _, rfl, rfl, rfl⟩

/-- Two states that differ in ports, configuration registers and earlier responses. -/
theorem witness_EncodeReadsOnlyTheTable :
    let s₂ : State := { cf1 with ports := portsOf 32 1 2 3, outbox := [plain .ok 0#4],
                                 block := { cf1Block with cfgResHz := 1, period := 0 } }
    cf1.block.phase = .ready ∧ s₂.block.phase = .ready ∧ cf1.block.t1h.toNat = s₂.block.t1h.toNat ∧ cf1.block.t1l.toNat = s₂.block.t1l.toNat
      ∧ cf1.block.t0h.toNat = s₂.block.t0h.toNat ∧ cf1.block.t0l.toNat = s₂.block.t0l.toNat ∧ cf1.block.tgap.toNat = s₂.block.tgap.toNat
      ∧ cf1 ≠ s₂ := by decide

theorem witness_ChecksumIsXorFold : 0 < 4 ∧ 3 < 4 := by decide

theorem witness_SingleBitErrorsAreDetected :
    0 < 12 ∧ 11 < 12 ∧ 0 < 16 ∧ 15 < 16 ∧ wellFormedFrame 0x7D0A#16 = true := by decide

theorem witness_DoubleFlipsEscapeTripleFlipsDoNot : 7 + 4 < 12 ∧ 3 + 8 < 12 := by decide

theorem witness_DistinctCommandsDistinctFrames :
    2047 ≤ 2047 ∧ frameOf (throttleOf 2047) true = frameOf (throttleOf 2047) true := by decide

/-- The table of CF1. -/
theorem witness_BufferDeterminesItsFrame : TableOk Params.default cf1Block := by decide

/-- The table of CF7, the smallest accepted period. -/
theorem witness_DataSymbolsHaveConstantPeriod :
    TableOk Params.default
      { cf1Block with period := 3, t1h := 2, t1l := 1, t0h := 1, t0l := 2, tgap := 2 } := by decide

/-- The table of CF15, the largest accepted period. -/
theorem witness_PlayedBufferEndsInTheGap :
    TableOk Params.default
      { cf1Block with period := 43690, t1h := 32767, t1l := 10923, t0h := 16383, t0l := 27307, tgap := 4 } := by
  decide

theorem witness_InvalidThrottleOnlyFromReadyEncode :
    ∃ (s t : State) (r : Response),
      step s = .next t ∧ t.outbox = s.outbox ++ [r] ∧ r.status = .invalidThrottle :=
  ⟨asking 0x80000800#32 cf1, { cf1 with outbox := [plain .invalidThrottle 0#4] }, plain .invalidThrottle 0#4,
    rfl, rfl, rfl⟩

theorem witness_ConfigurationErrorOnlyFromConfigure :
    ∃ (s t : State) (r : Response),
      step s = .next t ∧ t.outbox = s.outbox ++ [r] ∧ r.status = .configurationError :=
  ⟨asking 0x40000000#32 (fresh 2 1 1), { fresh 2 1 1 with outbox := [plain .configurationError 4#4] },
    plain .configurationError 4#4, rfl, rfl, rfl⟩

/-- One word and state for each clause of StatusPriority, at the throttle's boundary. -/
theorem witness_StatusPriority :
    decode Params.default 0xC0000000#32 = .error .opThree ∧ decode Params.default 0x00000000#32 = .ok .nop
      ∧ decode Params.default 0x80000800#32 = .ok (.encode 2048 false)
      ∧ decode Params.default 0x800007FF#32 = .ok (.encode 2047 false)
      ∧ decode Params.default 0x40000000#32 = .ok .configure
      ∧ State.reset.block.phase = .unconfigured ∧ cf1.block.phase = .ready
      ∧ Acceptable Params.default 40000000 600000 819 ∧ ¬ Acceptable Params.default 40000000 600000 820 := by decide

/-- An error, an accepted ENCODE, an accepted CONFIGURE, and (CF20) a CONFIGURE whose gap exceeds `DUR_MAX`. -/
theorem witness_NoErrorSubstitutesAValue :
    (∃ (t : State) (r : Response) (q : Request 32),
        (asking 0x80000800#32 cf1).inbox = [.request q] ∧ step (asking 0x80000800#32 cf1) = .next t
          ∧ t.outbox = (asking 0x80000800#32 cf1).outbox ++ [r] ∧ r.status ≠ .ok)
      ∧ (∃ (t : State) (r : Response) (q : Request 32),
        (asking 0x800007FF#32 cf1).inbox = [.request q] ∧ step (asking 0x800007FF#32 cf1) = .next t
          ∧ t.outbox = (asking 0x800007FF#32 cf1).outbox ++ [r]
          ∧ decode Params.default q.word = .ok (.encode 2047 false)
          ∧ r.status = .ok)
      ∧ (∃ (t : State) (r : Response) (q : Request 32),
        (asking 0x40000000#32 (fresh 3 1 333334)).inbox = [.request q]
          ∧ step (asking 0x40000000#32 (fresh 3 1 333334)) = .next t
          ∧ t.outbox = (asking 0x40000000#32 (fresh 3 1 333334)).outbox ++ [r]
          ∧ decode Params.default q.word = .ok .configure ∧ r.status = .ok)
      ∧ (∃ (t : State) (r : Response) (q : Request 32),
        (asking 0x40000000#32 (fresh 40000000 600000 820)).inbox = [.request q]
          ∧ step (asking 0x40000000#32 (fresh 40000000 600000 820)) = .next t
          ∧ t.outbox = (asking 0x40000000#32 (fresh 40000000 600000 820)).outbox ++ [r]
          ∧ decode Params.default q.word = .ok .configure ∧ ¬ AcceptablePorts Params.default q.ports) :=
  ⟨⟨_, _, _, rfl, rfl, rfl, by decide⟩, ⟨_, _, _, rfl, rfl, rfl, by decide, rfl⟩,
   ⟨_, _, _, rfl, rfl, rfl, by decide, rfl⟩, ⟨_, _, _, rfl, rfl, rfl, by decide, by decide⟩⟩

theorem witness_ErrorsChangeNoState :
    ∃ (t : State) (r : Response), step (asking 0xC0000000#32 cf1) = .next t
      ∧ t.outbox = (asking 0xC0000000#32 cf1).outbox ++ [r] ∧ r.status ≠ .ok := ⟨_, _, rfl, rfl, by decide⟩

theorem witness_RequestAfterErrorIsAnsweredNormally :
    ∃ (s t : State) (r : Response) (q₁ q₂ : Request s.par.cfgWidth),
      s.inbox = [.request q₁, .request q₂] ∧ step s = .next t ∧ t.outbox = s.outbox ++ [r] ∧ r.status ≠ .ok :=
  ⟨{ cf1 with inbox := [.request ⟨0x80000800#32, cf1.ports⟩, .request ⟨0x800007FF#32, cf1.ports⟩] }, _, _, _, _,
    rfl, rfl, rfl, by decide⟩

theorem witness_PortsReadByConfigureAlone :
    decode Params.default 0x00000000#32 ≠ .ok .configure ∧ decode Params.default 0x800003E8#32 ≠ .ok .configure
      ∧ decode Params.default 0x40000001#32 ≠ .ok .configure := by decide

theorem witness_PhaseChangesOnlyByConfigureAndReset :
    (∃ t : State, step { cf1 with inbox := [.reset] } = .next t ∧ cf1.block.phase = .ready
        ∧ t.block.phase = .unconfigured)
      ∧ ∃ t : State, step (asking 0x40000000#32 (fresh 40000000 600000 30)) = .next t
        ∧ (fresh 40000000 600000 30).block.phase = .unconfigured ∧ t.block.phase = .ready :=
  ⟨⟨_, rfl, rfl, rfl⟩, ⟨_, rfl, rfl, rfl⟩⟩

theorem witness_TableIsWriteOncePerReset :
    cf1.block.phase = .ready ∧ (∀ e ∈ (asking 0x40000000#32 cf1).inbox, e ≠ .reset)
      ∧ ∃ t : State, Host.Core.run Sys2Proof.core 1 (asking 0x40000000#32 cf1) = .next t :=
  ⟨rfl, by decide, _, rfl⟩

theorem witness_HandedOutBuffersNeverChange :
    ∃ t : State, Host.Core.run Sys2Proof.core 1 (asking 0x800003E8#32 cf1) = .next t := ⟨_, rfl⟩

theorem witness_EncodeRequestsCommute :
    decode Params.default 0x800003E8#32 = .ok (.encode 1000 false)
      ∧ decode Params.default 0x800107FF#32 = .ok (.encode 2047 true) := by decide

theorem witness_EncodeRightAfterConfigureReadsNewTable :
    ∃ (s : State) (w : Word) (p q : Ports s.par.cfgWidth) (rest : List (Event s.par.cfgWidth)) (thr : Nat) (tlm : Bool),
      s.block.phase = .unconfigured
      ∧ s.inbox = .request { word := 0x40000000#32, ports := p } :: .request { word := w, ports := q } :: rest
      ∧ decode s.par w = .ok (.encode thr tlm) ∧ thr ≤ 2047
      ∧ AcceptablePorts s.par p :=
  ⟨{ State.reset with inbox := [.request ⟨0x40000000#32, portsOf 32 43690 1 100⟩, .request ⟨0x800007FF#32, portsOf 32 0 0 0⟩] },
    0x800007FF#32, portsOf 32 43690 1 100, portsOf 32 0 0 0, [], 2047, false, rfl, rfl, by decide, by decide, by decide⟩

theorem witness_ResetThenConfigureReconfigures :
    ∃ (s : State) (p : Ports s.par.cfgWidth) (rest : List (Event s.par.cfgWidth)),
      s.inbox = .reset :: .request { word := 0x40000000#32, ports := p } :: rest
      ∧ AcceptablePorts s.par p :=
  ⟨{ cf1 with inbox := [.reset, .request ⟨0x40000000#32, portsOf 32 80000000 300000 50⟩] },
    portsOf 32 80000000 300000 50, [], rfl, by decide⟩

theorem witness_TableReadNeedsReady : State.reset.block.phase = .unconfigured ∧ cf1.block.phase = .ready := by decide

/-- A READY state that meets the invariant, and its next state. -/
theorem witness_StepKeepsInvariant :
    Inv (asking 0x800003E8#32 cf1) ∧ ∃ t : State, step (asking 0x800003E8#32 cf1) = .next t :=
  ⟨{ config := fun _ => by decide, table := fun _ => by decide,
     responses := fun _ h => by simp [asking, cf1, State.reset] at h }, _, rfl⟩

theorem witness_InstancesAreIndependent : (0 : Nat) ≠ 1 ∧ 0 < [cf1, cf1].length ∧ 1 < [cf1, cf1].length := by decide

end Sys2Proof.Tests
end

section
/-! PROOFS. 20_memory.md. The responses handed out are an output and nothing more (R47): what an instruction, a step and
a run do is stated once for every record of earlier responses, and the two statements of the family follow (R46, R47). -/

namespace Sys2Proof.Machine

/-! ### What the block does, whatever has been handed out before -/

/-- The state with the record `o` of responses handed out in place of its own. -/
abbrev withOutbox (s : State) (o : List Response) : State := { s with outbox := o }

/-- An instruction hands out one response and leaves a block that are the same for every record `o` of earlier responses;
the block is the one before, but for a CONFIGURE that an UNCONFIGURED block answers with OK. -/
theorem exec_any_outbox (i : Instr) (s : State) :
    ∃ (b : Block s.par) (r : Response),
      (∀ o : List Response,
        exec i (withOutbox s o) = .next { s with block := b, outbox := o ++ [r] })
      ∧ (b = s.block
          ∨ (i = .configure ∧ s.block.phase = .unconfigured ∧ r.status = .ok ∧ b.phase = .ready)) := by
  cases i with
  | nop => exact ⟨s.block, _, fun _ => rfl, .inl rfl⟩
  | configure =>
    cases hp : s.block.phase with
    | ready => exact ⟨s.block, _, fun o => execConfigure_ready (s := withOutbox s o) hp, .inl rfl⟩
    | unconfigured =>
      cases hf : firstFailure s.par (portRes s) (portRate s) (portDelay s) with
      | some e => exact ⟨s.block, _, fun o => execConfigure_failed (s := withOutbox s o) hp hf, .inl rfl⟩
      | none =>
        exact ⟨configuredBlock s.par s.ports hf, _, fun o => execConfigure_accepted (s := withOutbox s o) hp hf,
          .inr ⟨rfl, rfl, rfl, rfl⟩⟩
  | encode thr tlm =>
    cases hp : s.block.phase with
    | unconfigured => exact ⟨s.block, _, fun o => execEncode_unconfigured (s := withOutbox s o) hp thr tlm, .inl rfl⟩
    | ready =>
      rcases Nat.lt_or_ge 2047 thr with ht | ht
      · exact ⟨s.block, _, fun o => execEncode_rejected (s := withOutbox s o) hp ht tlm, .inl rfl⟩
      · exact ⟨s.block, ⟨.ok, 0#4, some _, some (symbolsOf s.block.lut _)⟩,
          fun o => execEncode_accepted (s := withOutbox s o) hp ht tlm, .inl rfl⟩

/-- A request word is answered with one response, the same for every record of earlier responses. -/
theorem serve_any_outbox (w : Word) (s : State) :
    ∃ (b : Block s.par) (r : Response), ∀ o : List Response,
      serve w (withOutbox s o) = .next { s with block := b, outbox := o ++ [r] } := by
  cases hd : decode s.par w with
  | error e => exact ⟨s.block, _, fun o => serve_error (s := withOutbox s o) hd⟩
  | ok i =>
    obtain ⟨b, r, hexec, _⟩ := exec_any_outbox i s
    exact ⟨b, r, fun o => (serve_ok (s := withOutbox s o) hd).trans (hexec o)⟩

/-- A step takes the first event presented and hands out the same responses for every record of earlier ones: one for a
request, none for a reset or when nothing is presented. -/
theorem step_any_outbox (s : State) :
    ∃ (b : Block s.par) (q : Ports s.par.cfgWidth) (new : List Response),
      (∀ o : List Response,
        step (withOutbox s o)
          = .next { s with block := b, ports := q, inbox := s.inbox.drop 1, outbox := o ++ new })
      ∧ new.length = ((s.inbox.take 1).filter (fun e => e != .reset)).length := by
  rcases hi : s.inbox with _ | ⟨e, rest⟩
  · refine ⟨s.block, s.ports, [], fun o => ?_, rfl⟩
    rw [List.append_nil, List.drop_nil, ← hi]
    exact step_idle (s := withOutbox s o) hi
  · cases e with
    | reset =>
      refine ⟨Block.reset s.par, s.ports, [], fun o => ?_, rfl⟩
      rw [List.append_nil]
      exact step_reset (s := withOutbox s o) hi
    | request p =>
      obtain ⟨b, r, hserve⟩ := serve_any_outbox p.word (takeRequest s p.ports rest)
      exact ⟨b, p.ports, [r], fun o => (step_request (s := withOutbox s o) hi).trans (hserve o), rfl⟩

/-- A run of `n` steps takes the first `n` events presented and hands out the same responses for every record of earlier
ones, one for each request among those events. -/
theorem run_any_outbox (n : Nat) (s : State) :
    ∃ (b : Block s.par) (q : Ports s.par.cfgWidth) (new : List Response),
      (∀ o : List Response,
        Host.Core.run Sys2Proof.core n (withOutbox s o)
          = .next ({ s with block := b, ports := q, inbox := s.inbox.drop n, outbox := o ++ new } : State))
      ∧ new.length = ((s.inbox.take n).filter (fun e => e != .reset)).length := by
  induction n generalizing s with
  | zero =>
    refine ⟨s.block, s.ports, [], fun o => ?_, rfl⟩
    rw [run_zero, List.append_nil, List.drop_zero]
  | succ n ih =>
    obtain ⟨b₁, q₁, first, hstep, hfirst⟩ := step_any_outbox s
    obtain ⟨b, q, later, hrun, hlater⟩ := ih { s with block := b₁, ports := q₁, inbox := s.inbox.drop 1 }
    refine ⟨b, q, first ++ later, fun o => ?_, ?_⟩
    · rw [run_succ_of_step (hstep o), hrun (o ++ first), List.append_assoc, List.drop_drop, Nat.add_comm 1 n]
    · rw [List.length_append, hfirst, hlater, Nat.add_comm n 1, List.take_add, List.filter_append, List.length_append]

/-! ### The statements of 20_memory.md -/

/-- Settles O45: the run's responses are those of `run_any_outbox`, for the record of `s` and for any other. -/
theorem handedOutBuffersNeverChange : Obligations.HandedOutBuffersNeverChange := by
  intro n s t o h
  obtain ⟨b, q, new, hrun, _⟩ := run_any_outbox n s
  cases h.symm.trans (hrun s.outbox)
  exact ⟨new, rfl, hrun o⟩

/-- Settles O24: an instruction that writes the block is a CONFIGURE answered with OK, and the second ENCODE of a pair
starts from the first one's state but for the responses handed out. -/
theorem sideEffectsAreConfiguresAlone : Obligations.SideEffectsAreConfiguresAlone := by
  refine ⟨fun i s t h => ?_, fun thr tlm s t u ht hu => ?_⟩
  · obtain ⟨b, r, hexec, hb⟩ := exec_any_outbox i s
    cases h.symm.trans (hexec s.outbox)
    rcases hb with rfl | ⟨hconf, _, hok, _⟩
    · have keeps : KeepsRegisters s { s with outbox := s.outbox ++ [r] } := ⟨s.ports, s.inbox, _, rfl⟩
      exact ⟨fun _ => keeps, fun _ _ _ _ => keeps⟩
    · refine ⟨fun hne => absurd hconf hne, fun _ r' hr' hne => ?_⟩
      have hrr' : r = r' := by simpa using hr'
      exact absurd (hrr' ▸ hok) hne
  · obtain ⟨b, r, hexec, hb⟩ := exec_any_outbox (.encode thr tlm) s
    obtain rfl : b = s.block := by simpa using hb
    cases ht.symm.trans (hexec s.outbox)
    cases hu.symm.trans (hexec (s.outbox ++ [r]))
    exact ⟨r, rfl, rfl⟩

end Sys2Proof.Machine
end

section
/-! PROOFS. 40_configure.md. CONFIGURE on operands that pass every check of R87 (R83 to R88). -/

namespace Sys2Proof.Machine

/-- Settles O15: the operands are acceptable, so no check of R87 holds and the registers written are those of
`configuredBlock`, whose counts are those of `timingOf`. -/
theorem configureWritesTheTable : Obligations.ConfigureWritesTheTable := by
  rintro s _ _ _ _ _ _ _ hphase rfl rfl rfl rfl rfl rfl rfl hR hB hBR hphases hlt hgmin hgmax
  have hpass : firstFailure s.par (portRes s) (portRate s) (portDelay s) = none :=
    (firstFailure_eq_none _ _ _ _).2 ⟨hR, hB, hBR, hphases, hlt, hgmin, hgmax⟩
  refine ⟨configuredBlock s.par s.ports hpass, execConfigure_accepted hphase hpass, rfl, rfl, rfl, rfl, ?_⟩
  exact ⟨configuredBlock_period hpass, configuredBlock_t1h hpass, configuredBlock_t1l hpass,
    configuredBlock_t0h hpass, configuredBlock_t0l hpass, configuredBlock_tgap hpass⟩

end Sys2Proof.Machine
end

section
/-! PROOFS. 41_frame_checksum.md. The payload and the frame are concatenations of their fields, most significant field
first, so that each field is read back where R102 and R104 place it (R102 to R104). -/

namespace Sys2Proof.Machine

/-! ### Checksum unit -/

/-- The shifted form of the fold in R103. -/
theorem csum_eq_setWidth_xor_shifts (p : BitVec 12) : csum p = (p ^^^ p >>> 4 ^^^ p >>> 8).setWidth 4 := by
  calc csum p = p.extractLsb' 0 4 ^^^ p.extractLsb' 4 4 ^^^ p.extractLsb' 8 4 := by
        rw [csum, BitVec.xor_assoc, BitVec.xor_comm, BitVec.xor_comm (p.extractLsb' 4 4)]
    _ = (p ^^^ p >>> 4 ^^^ p >>> 8).setWidth 4 := by
        rw [BitVec.setWidth_xor, BitVec.setWidth_xor, BitVec.setWidth_ushiftRight_eq_extractLsb,
          BitVec.setWidth_ushiftRight_eq_extractLsb, BitVec.setWidth_eq_extractLsb' (by decide)]

theorem csum_getLsbD (p : BitVec 12) {k : Nat} (hk : k < 4) :
    (csum p).getLsbD k = ((p.getLsbD (k + 8)).xor (p.getLsbD (k + 4))).xor (p.getLsbD k) := by
  simp [csum, hk, Nat.add_comm]

theorem csum_toNat (p : BitVec 12) : (csum p).toNat = (p.toNat ^^^ (p.toNat >>> 4) ^^^ (p.toNat >>> 8)) &&& 0xF := by
  rw [csum_eq_setWidth_xor_shifts, BitVec.toNat_setWidth, ← Nat.and_two_pow_sub_one_eq_mod]
  simp only [BitVec.toNat_xor, BitVec.toNat_ushiftRight]

/-! ### Payload and frame as concatenations of their fields -/

/-- `payload[11:1] = throttle` and `payload[0] = telemetry_request` (R102). -/
theorem payloadOf_eq_append (throttle : BitVec 11) (tlm : Bool) : payloadOf throttle tlm = throttle ++ BitVec.ofBool tlm :=
  BitVec.setWidth_append_eq_shiftLeft_setWidth_or.symm.trans (BitVec.setWidth_eq _)

/-- The payload followed by the checksum, most significant bit first (R104). -/
theorem frameOfPayload_eq_append (p : BitVec 12) : frameOfPayload p = p ++ csum p :=
  BitVec.setWidth_append_eq_shiftLeft_setWidth_or.symm.trans (BitVec.setWidth_eq _)

@[simp] theorem frameOfPayload_checksum (p : BitVec 12) : (frameOfPayload p).extractLsb' 0 4 = csum p := by
  rw [frameOfPayload_eq_append, BitVec.extractLsb'_append_eq_right]

@[simp] theorem frameOf_throttle (throttle : BitVec 11) (tlm : Bool) :
    (frameOf throttle tlm).extractLsb' 5 11 = throttle := by
  rw [frameOf, frameOfPayload_eq_append, BitVec.extractLsb'_append_eq_of_le (by decide), payloadOf_eq_append,
    BitVec.extractLsb'_append_eq_left]

theorem frameOf_telemetry (throttle : BitVec 11) (tlm : Bool) : (frameOf throttle tlm).getLsbD 4 = tlm := by
  rw [frameOf, frameOfPayload_eq_append, BitVec.getLsbD_append, payloadOf_eq_append, BitVec.getLsbD_append]
  simp

/-! ### The statements of 41_frame_checksum.md -/

/-- Settles O22: an accepted ENCODE answers `frameOf` of its throttle, which fits its 11 bits, and each field of that frame
is read back from its place. -/
theorem acceptedFrameLayout : Obligations.AcceptedFrameLayout := by
  intro s thr tlm hready hthr
  refine ⟨frameOf (throttleOf thr) tlm, symbolsOf s.block.lut (frameOf (throttleOf thr) tlm),
    execEncode_accepted hready hthr tlm, ?throttle, frameOf_telemetry _ _, frameOfPayload_checksum _, rfl⟩
  case throttle => rw [frameOf_throttle, throttleOf_toNat hthr]

/-- Settles O27: the fold bit by bit and by shifts. -/
theorem checksumIsXorFold : Obligations.ChecksumIsXorFold :=
  fun p => ⟨fun _ hk => csum_getLsbD p hk, csum_toNat p⟩

end Sys2Proof.Machine
end

section
/-! PROOFS. 43_encode.md. The word of an ENCODE is read by its row of the opcode table, and the frame an accepted ENCODE
answers is read as a number (R140, R143). -/

namespace Sys2Proof

/-! ### The word of an ENCODE -/

/-- The mask of the ENCODE row covers `w[31:17]`, so that a word of the row holds the row's pattern there. -/
theorem toNat_div_of_encodeRow {w : Word} (h : w &&& 0xFFFE0000#32 = 0x80000000#32) : w.toNat / 2 ^ 17 = 2 ^ 14 := by
  have htop : w.extractLsb' 17 15 = 0x4000#15 :=
    calc w.extractLsb' 17 15 = w.extractLsb' 17 15 &&& (0xFFFE0000#32).extractLsb' 17 15 := BitVec.and_allOnes.symm
      _ = (0x80000000#32).extractLsb' 17 15 := by rw [← BitVec.extractLsb'_and, h]
  have hnat := congrArg BitVec.toNat htop
  rw [BitVec.extractLsb'_toNat, Nat.shiftRight_eq_div_pow, BitVec.toNat_ofNat] at hnat
  have := w.isLt
  omega

/-- The ENCODE branch of R64. -/
theorem decode_encode_word {p : Params} {w : Word} (hop : opField w = 2) (hrsv : encodeReserved p w = 0) :
    decode p w = .ok (.encode (thrField p w) (tlmField p w)) := by
  simp [decode, hop, hrsv]

/-- At the `W_THR` of R62 a word of the ENCODE row is decoded to its low 16 bits and bit 16. -/
theorem decode_of_encodeRow {p : Params} {w : Word} (hp : p.thrWidth = 16)
    (h : w &&& 0xFFFE0000#32 = 0x80000000#32) : decode p w = .ok (.encode (w.toNat % 2 ^ 16) (w.getLsbD 16)) := by
  have hw := toNat_div_of_encodeRow h
  have hop : opField w = 2 := by
    rw [opField_eq]
    omega
  have hrsv : encodeReserved p w = 0 := by
    rw [encodeReserved_eq, hp]
    omega
  rw [decode_encode_word hop hrsv, thrField_eq, tlmField, hp]

end Sys2Proof

namespace Sys2Proof.Machine

/-! ### Payload, checksum and frame as numbers -/

/-- `payload = (throttle << 1) or telemetry_request`, on the throttle operand itself (R102). -/
theorem payloadOf_toNat {thr : Nat} (h : thr ≤ 2047) (tlm : Bool) :
    (payloadOf (throttleOf thr) tlm).toNat = (thr <<< 1) ||| tlm.toNat := by
  rw [payloadOf_eq_append, BitVec.toNat_append, throttleOf_toNat h, BitVec.toNat_ofBool]

/-- The fold of R103 over the nibbles of the number. -/
theorem csum_toNat_nibbles (p : BitVec 12) :
    (csum p).toNat = (p.toNat >>> 8) ^^^ ((p.toNat >>> 4) % 16) ^^^ (p.toNat % 16) := by
  have htop : p.toNat >>> 8 % 16 = p.toNat >>> 8 := Nat.mod_eq_of_lt (by have := p.isLt; omega)
  simp only [csum, BitVec.toNat_xor, BitVec.extractLsb'_toNat, Nat.shiftRight_zero, Nat.reducePow, htop]

/-- `frame = (payload << 4) or csum(payload)` (R104). -/
theorem frameOfPayload_toNat (p : BitVec 12) : (frameOfPayload p).toNat = (p.toNat <<< 4) ||| (csum p).toNat := by
  rw [frameOfPayload_eq_append, BitVec.toNat_append]

/-- The throttle field of the frame holds the throttle operand, unclamped (R143). -/
theorem frameOf_toNat_div {thr : Nat} (h : thr ≤ 2047) (tlm : Bool) :
    (frameOf (throttleOf thr) tlm).toNat / 32 = thr := by
  have hfield := congrArg BitVec.toNat (frameOf_throttle (throttleOf thr) tlm)
  rw [BitVec.extractLsb'_toNat, throttleOf_toNat h, Nat.shiftRight_eq_div_pow] at hfield
  have := (frameOf (throttleOf thr) tlm).isLt
  omega

/-! ### The symbols of an accepted ENCODE -/

/-- A data symbol of a block is the logical-1 or the logical-0 symbol of its table, by the frame's bit (R121). -/
theorem symbolsOf_lut_data {p : Params} (b : Block p) (F : BitVec 16) {i : Nat} (h : i < 16) :
    (symbolsOf b.lut F)[i]? = some (if F.getLsbD (15 - i)
      then { high := b.t1h.toNat, low := b.t1l.toNat } else { high := b.t0h.toNat, low := b.t0l.toNat }) := by
  rw [symbolsOf_data _ _ h]
  cases F.getLsbD (15 - i) <;> rfl

/-! ### The statements of 43_encode.md -/

/-- Settles O21: the three answers of ENCODE, and for the accepted one the payload, checksum and frame as numbers. -/
theorem encodeFollowsItsPseudocode : Obligations.EncodeFollowsItsPseudocode := by
  refine ⟨fun _ _ hp hw => decode_of_encodeRow hp hw, fun s thr tlm => ⟨?notReady, ?rejected, ?accepted⟩⟩
  case notReady => exact fun hphase => execEncode_unconfigured hphase thr tlm
  case rejected => exact fun hphase hthr => execEncode_rejected hphase hthr tlm
  case accepted =>
    intro hphase hthr
    have hpayload := payloadOf_toNat hthr tlm
    refine ⟨_, _, frameOf (throttleOf thr) tlm, _, execEncode_accepted hphase hthr tlm, rfl, rfl, ?frame,
      symbolsOf_length _ _, fun _ hi => symbolsOf_lut_data _ _ hi, symbolsOf_gap _ _⟩
    case frame => rw [frameOf, frameOfPayload_toNat, csum_toNat_nibbles, hpayload]

/-- Settles O23: the throttle check decides between the two answers of a READY block, and the accepted throttle stands
in the frame as it was given. -/
theorem throttleCheckedNeverClamped : Obligations.ThrottleCheckedNeverClamped := by
  intro s thr tlm hphase
  rcases Nat.lt_or_ge 2047 thr with hthr | hthr
  · exact ⟨_, execEncode_rejected hphase hthr tlm, rfl, iff_of_true rfl hthr, iff_of_false nofun hthr.not_ge,
      iff_of_true rfl hthr, iff_of_true rfl hthr, nofun⟩
  · refine ⟨_, execEncode_accepted hphase hthr tlm, rfl, iff_of_false nofun hthr.not_gt, iff_of_true rfl hthr,
      iff_of_false nofun hthr.not_gt, iff_of_false nofun hthr.not_gt, ?fields⟩
    case fields =>
      rintro _ ⟨⟩
      exact ⟨frameOf_toNat_div hthr tlm, frameOf_telemetry _ tlm⟩

end Sys2Proof.Machine
end

section
/-! PROOFS. 60_exceptions.md. What an error answer says about the step that gave it: the request and the condition it comes
from, a response without data, and the registers as they were (R161, R162, R164, R165, R174). -/

namespace Sys2Proof.Machine

/-! ### Reading the response of a step off the record -/

/-- The response that a record has gained is the one handed out. -/
theorem handedOut_eq {o : List Response} {a r : Response} (h : o ++ [a] = o ++ [r]) : a = r :=
  List.singleton_inj.1 (List.append_cancel_left h)

/-! ### The errors -/

/-- The five error rows of R160: the status and the reason that the request `q` is answered with in the state `s`, and the
condition under which it is. -/
inductive ErrorCause (s : State) (q : Request s.par.cfgWidth) : Status → BitVec 4 → Prop where
  | illegalRequest (e : Reserved) (hd : decode s.par q.word = .error e) : ErrorCause s q .illegalRequest 0#4
  | notReady (thr : Nat) (tlm : Bool) (hd : decode s.par q.word = .ok (.encode thr tlm))
      (hp : s.block.phase = .unconfigured) : ErrorCause s q .notReady 0#4
  | invalidThrottle (thr : Nat) (tlm : Bool) (hd : decode s.par q.word = .ok (.encode thr tlm))
      (hp : s.block.phase = .ready) (ht : 2047 < thr) : ErrorCause s q .invalidThrottle 0#4
  | alreadyConfigured (hd : decode s.par q.word = .ok .configure) (hp : s.block.phase = .ready) :
      ErrorCause s q .alreadyConfigured 0#4
  | configurationError (e : CfgReason) (hd : decode s.par q.word = .ok .configure)
      (hp : s.block.phase = .unconfigured)
      (he : firstFailure s.par q.ports.resolutionHz.toNat q.ports.bitRateHz.toNat q.ports.postDelayUs.toNat = some e) :
      ErrorCause s q .configurationError e.code

/-- A step that hands out an error took a request that has a cause for it, hands out no data and writes no register. -/
theorem step_error_inversion {s t : State} {r : Response} (h : step s = .next t) (hout : t.outbox = s.outbox ++ [r])
    (herr : r.status ≠ .ok) :
    ∃ (q : Request s.par.cfgWidth) (rest : List (Event s.par.cfgWidth)) (st : Status) (reason : BitVec 4),
      s.inbox = .request q :: rest ∧ ErrorCause s q st reason ∧ r = ⟨st, reason, none, none⟩
        ∧ t = { s with ports := q.ports, inbox := rest, outbox := s.outbox ++ [r] } := by
  cases step_cases h with
  | idle | reset => simp at hout
  | nop | encoded | configured =>
    cases handedOut_eq hout
    exact absurd rfl herr
  | illegal q rest e hi hd =>
    cases handedOut_eq hout
    exact ⟨q, rest, _, _, hi, .illegalRequest e hd, rfl, rfl⟩
  | notReady q rest thr tlm hi hd hp =>
    cases handedOut_eq hout
    exact ⟨q, rest, _, _, hi, .notReady thr tlm hd hp, rfl, rfl⟩
  | invalidThrottle q rest thr tlm hi hd hp ht =>
    cases handedOut_eq hout
    exact ⟨q, rest, _, _, hi, .invalidThrottle thr tlm hd hp ht, rfl, rfl⟩
  | alreadyConfigured q rest hi hd hp =>
    cases handedOut_eq hout
    exact ⟨q, rest, _, _, hi, .alreadyConfigured hd hp, rfl, rfl⟩
  | configurationError q rest e hi hd hp he =>
    cases handedOut_eq hout
    exact ⟨q, rest, _, _, hi, .configurationError e hd hp he, rfl, rfl⟩

theorem not_acceptable_of_firstFailure {p : Params} {R B U : Nat} {e : CfgReason} (h : firstFailure p R B U = some e) :
    ¬ Acceptable p R B U := by
  simp [← firstFailure_eq_none, h]

theorem cfgReason_code_range (e : CfgReason) : 1 ≤ e.code.toNat ∧ e.code.toNat ≤ 8 := by
  cases e <;> decide

/-! ### The OK answers of ENCODE and CONFIGURE -/

/-- A step that takes a request runs its instruction on the ports of the request. -/
theorem step_eq_exec {s : State} {q : Request s.par.cfgWidth} {rest : List (Event s.par.cfgWidth)} {i : Instr}
    (hi : s.inbox = .request q :: rest) (hd : decode s.par q.word = .ok i) :
    step s = exec i (takeRequest s q.ports rest) :=
  (step_request hi).trans (serve_ok (s := takeRequest s q.ports rest) hd)

/-- ENCODE answers OK only within the throttle range, with the frame of the operand. -/
theorem execEncode_ok_inversion {s t : State} {thr : Nat} {tlm : Bool} {r : Response}
    (h : execEncode thr tlm s = .next t) (hout : t.outbox = s.outbox ++ [r]) (hok : r.status = .ok) :
    thr ≤ 2047 ∧ r.frame = some (frameOf (throttleOf thr) tlm) := by
  cases hp : s.block.phase with
  | unconfigured =>
    cases h.symm.trans (execEncode_unconfigured hp thr tlm)
    cases handedOut_eq hout
    cases hok
  | ready =>
    rcases Nat.lt_or_ge 2047 thr with ht | ht
    · cases h.symm.trans (execEncode_rejected hp ht tlm)
      cases handedOut_eq hout
      cases hok
    · cases h.symm.trans (execEncode_accepted hp ht tlm)
      cases handedOut_eq hout
      exact ⟨ht, rfl⟩

/-- CONFIGURE answers OK only when no check of R87 holds, and then makes the register write of R88. -/
theorem execConfigure_ok_inversion {s t : State} {r : Response} (h : execConfigure s = .next t)
    (hout : t.outbox = s.outbox ++ [r]) (hok : r.status = .ok) :
    ∃ hpass : firstFailure s.par (portRes s) (portRate s) (portDelay s) = none,
      t = handOut r (writeConfig s hpass) := by
  cases hp : s.block.phase with
  | ready =>
    cases h.symm.trans (execConfigure_ready hp)
    cases handedOut_eq hout
    cases hok
  | unconfigured =>
    rcases (firstFailure s.par (portRes s) (portRate s) (portDelay s)).eq_none_or_eq_some with hpass | ⟨e, hfail⟩
    · cases h.symm.trans (execConfigure_accepted hp hpass)
      cases handedOut_eq hout
      exact ⟨hpass, rfl⟩
    · cases h.symm.trans (execConfigure_failed hp hfail)
      cases handedOut_eq hout
      cases hok

/-! ### What a request is answered with -/

/-- A presented request is answered from the registers and the parameters alone: the block left and the response are the
same for all earlier port values and all earlier responses. -/
theorem step_request_any_ports_outbox (s : State) (q : Request s.par.cfgWidth) (rest : List (Event s.par.cfgWidth)) :
    ∃ (b : Block s.par) (r : Response), ∀ (p : Ports s.par.cfgWidth) (o : List Response),
      step { s with inbox := .request q :: rest, ports := p, outbox := o }
        = .next { s with inbox := rest, ports := q.ports, block := b, outbox := o ++ [r] } := by
  obtain ⟨b, r, hserve⟩ := serve_any_outbox q.word (takeRequest s q.ports rest)
  exact ⟨b, r, fun p o => (step_request rfl).trans (hserve o)⟩

/-! ### The statements of 60_exceptions.md -/

/-- Settles O36: INVALID_THROTTLE has one cause, the throttle check of a READY block. -/
theorem invalidThrottleOnlyFromReadyEncode : Obligations.InvalidThrottleOnlyFromReadyEncode := by
  intro s t r h hout hst
  obtain ⟨q, rest, st, reason, hi, hcause, rfl, rfl⟩ := step_error_inversion h hout (by simp [hst])
  cases hst
  cases hcause with
  | invalidThrottle thr tlm hd hp ht => exact ⟨hp, ⟨q, rest, thr, tlm, hi, hd, ht⟩, rfl, rfl, rfl, _, _, _, rfl⟩

/-- Settles O37: CONFIGURATION_ERROR has one cause, and its reason is the code of the first check that fails. -/
theorem configurationErrorOnlyFromConfigure : Obligations.ConfigurationErrorOnlyFromConfigure := by
  intro s t r h hout hst
  obtain ⟨q, rest, st, reason, hi, hcause, rfl, rfl⟩ := step_error_inversion h hout (by simp [hst])
  cases hst
  cases hcause with
  | configurationError e hd hp he =>
    obtain ⟨hlo, hhi⟩ := cfgReason_code_range e
    exact ⟨hp, ⟨q, rest, e, hi, hd, not_acceptable_of_firstFailure he, he, rfl⟩, hlo, hhi, rfl, rfl, _, _, _, rfl⟩

/-- Settles O39: an error has neither data nor a write, and the OK answers of ENCODE and CONFIGURE are about the operands
presented. -/
theorem noErrorSubstitutesAValue : Obligations.NoErrorSubstitutesAValue := by
  intro s t r q rest hi h hout
  refine ⟨fun herr => ?error, fun thr tlm hd hok => ?encoded, fun hd hok => ?configured, fun hd hnot hok => ?turnedAway⟩
  case error =>
    obtain ⟨_, _, _, _, _, _, rfl, rfl⟩ := step_error_inversion h hout herr
    exact ⟨rfl, rfl, _, _, _, rfl⟩
  case encoded =>
    obtain ⟨hthr, hframe⟩ := execEncode_ok_inversion ((step_eq_exec hi hd).symm.trans h) hout hok
    exact ⟨_, hframe, frameOf_toNat_div hthr tlm⟩
  case configured =>
    obtain ⟨_, rfl⟩ := execConfigure_ok_inversion ((step_eq_exec hi hd).symm.trans h) hout hok
    exact ⟨rfl, rfl, rfl⟩
  case turnedAway =>
    obtain ⟨hpass, _⟩ := execConfigure_ok_inversion ((step_eq_exec hi hd).symm.trans h) hout hok
    exact hnot ((firstFailure_eq_none _ _ _ _).1 hpass)

/-- Settles O41: an error leaves the registers, and the next request is answered from the registers and the parameters
alone. -/
theorem requestAfterErrorIsAnsweredNormally : Obligations.RequestAfterErrorIsAnsweredNormally := by
  intro s t r q₁ q₂ rest hi h hout herr
  obtain ⟨q, rest', _, _, hi', _, _, rfl⟩ := step_error_inversion h hout herr
  cases hi.symm.trans hi'
  obtain ⟨b, r₂, hstep⟩ := step_request_any_ports_outbox s q₂ rest
  refine ⟨b, r₂, ?_, hstep s.ports s.outbox⟩
  rw [hstep, List.append_assoc, List.singleton_append]

end Sys2Proof.Machine
end

section
/-! PROOFS. 30_encoding.md. The decoder as one equivalence per instruction, the word of an ENCODE as the sum of its fields,
and what follows: decoding and encoding are inverse, the rows of the opcode table, the reserved words and the counts of R69
(R62, R64, R68, R69). -/

namespace Sys2Proof

/-! ### The decoder, one equivalence per instruction -/

/-- NOP has one word (R62, R64). -/
theorem decode_eq_nop_iff {p : Params} {w : Word} : decode p w = .ok .nop ↔ w = 0x00000000#32 := by
  have hfields : opField w = 0 ∧ lowReserved w = 0 ↔ w = 0x00000000#32 := by
    rw [opField_eq, lowReserved_eq, ← BitVec.toNat_inj, BitVec.toNat_ofNat]
    omega
  rw [← hfields]
  unfold decode
  split_ifs <;> simp [*]

/-- CONFIGURE has one word (R62, R64). -/
theorem decode_eq_configure_iff {p : Params} {w : Word} : decode p w = .ok .configure ↔ w = 0x40000000#32 := by
  have hfields : opField w = 1 ∧ lowReserved w = 0 ↔ w = 0x40000000#32 := by
    rw [opField_eq, lowReserved_eq, ← BitVec.toNat_inj, BitVec.toNat_ofNat]
    omega
  rw [← hfields]
  unfold decode
  split_ifs <;> simp [*]

/-- The words of an ENCODE, by their four fields (R62, R64). -/
theorem decode_eq_encode_iff {p : Params} {w : Word} {thr : Nat} {tlm : Bool} :
    decode p w = .ok (.encode thr tlm)
      ↔ w.toNat / 2 ^ 30 = 2 ∧ w.toNat % 2 ^ 30 / 2 ^ (p.thrWidth + 1) = 0
        ∧ thr = w.toNat % 2 ^ p.thrWidth ∧ tlm = w.getLsbD p.thrWidth := by
  rw [← opField_eq, ← encodeReserved_eq, ← thrField_eq, ← tlmField.eq_def]
  unfold decode
  split_ifs <;> simp [*, eq_comm (a := thr), eq_comm (a := tlm)]

/-- The reserved words (R68). -/
theorem decode_eq_error_iff {p : Params} {w : Word} :
    (∃ e, decode p w = .error e)
      ↔ w.toNat / 2 ^ 30 = 3 ∨ (w.toNat / 2 ^ 30 ≤ 1 ∧ w.toNat % 2 ^ 30 ≠ 0)
        ∨ (w.toNat / 2 ^ 30 = 2 ∧ w.toNat % 2 ^ 30 / 2 ^ (p.thrWidth + 1) ≠ 0) := by
  have hop : opField w < 4 := Nat.mod_lt _ (by decide)
  rw [← opField_eq, ← encodeReserved_eq, ← lowReserved_eq]
  unfold decode
  split_ifs <;> simp [*]
  omega

/-! ### The word of an ENCODE as the sum of its fields -/

/-- The telemetry bit and the throttle field fill the bits below the reserved ones. -/
theorem encodeFields_lt {k thr : Nat} (hthr : thr < 2 ^ k) (tlm : Bool) : 2 ^ k * tlm.toNat + thr < 2 ^ (k + 1) := by
  have htlm : 2 ^ k * tlm.toNat ≤ 2 ^ k * 1 := Nat.mul_le_mul_left _ (Bool.toNat_le tlm)
  rw [Nat.pow_succ]
  omega

/-- The telemetry bit and the throttle field stand below `OP`. -/
theorem two_pow_thrWidth_succ_le (p : Params) : 2 ^ (p.thrWidth + 1) ≤ 2 ^ 30 :=
  Nat.pow_le_pow_right (by decide) (Nat.succ_le_succ p.thrWidth_le)

/-- The word of R70 as a number. -/
theorem encode_toNat (p : Params) {thr : Nat} (hthr : thr < 2 ^ p.thrWidth) (tlm : Bool) :
    (encode p (.encode thr tlm)).toNat = 2 ^ 31 + (2 ^ p.thrWidth * tlm.toNat + thr) := by
  have hlt := (encodeFields_lt hthr tlm).trans_le (two_pow_thrWidth_succ_le p)
  have htlm : (BitVec.ofNat 32 tlm.toNat <<< p.thrWidth).toNat = tlm.toNat <<< p.thrWidth := by
    rw [BitVec.toNat_shiftLeft, BitVec.toNat_ofNat, Nat.mod_eq_of_lt (a := tlm.toNat) (by cases tlm <;> decide),
      Nat.shiftLeft_eq, Nat.mul_comm]
    exact Nat.mod_eq_of_lt (by omega)
  have hfields : tlm.toNat <<< p.thrWidth ||| thr = 2 ^ p.thrWidth * tlm.toNat + thr := by
    rw [← Nat.shiftLeft_add_eq_or_of_lt hthr, Nat.shiftLeft_eq, Nat.mul_comm]
  rw [encode, BitVec.toNat_or, BitVec.toNat_or, htlm, BitVec.toNat_ofNat, BitVec.toNat_ofNat,
    Nat.mod_eq_of_lt (a := thr) (by omega), Nat.or_assoc, hfields]
  exact (Nat.two_pow_add_eq_or_of_lt (i := 31) (by omega) 1).symm

/-- A word whose `OP` is 10 and whose reserved bits are zero is the sum of its fields. -/
theorem toNat_eq_of_encodeWord {p : Params} {w : Word} (hop : w.toNat / 2 ^ 30 = 2)
    (hrsv : w.toNat % 2 ^ 30 / 2 ^ (p.thrWidth + 1) = 0) :
    w.toNat = 2 ^ 31 + (2 ^ p.thrWidth * (w.getLsbD p.thrWidth).toNat + w.toNat % 2 ^ p.thrWidth) := by
  have hlow : w.toNat % 2 ^ 30 = w.toNat % 2 ^ (p.thrWidth + 1) := by
    rw [← Nat.mod_eq_of_lt (Nat.lt_of_div_eq_zero (Nat.two_pow_pos _) hrsv),
      Nat.mod_mod_of_dvd _ (Nat.pow_dvd_pow 2 (Nat.succ_le_succ p.thrWidth_le))]
  rw [Nat.mod_pow_succ (x := w.toNat) (k := p.thrWidth), ← Nat.toNat_testBit] at hlow
  have hbit : w.getLsbD p.thrWidth = w.toNat.testBit p.thrWidth := rfl
  rw [hbit]
  omega

/-! ### Decoding and encoding are inverse -/

/-- Settles O2: the word of an ENCODE is the sum of its fields, and each is read back from it. -/
theorem decodeOfEncodeIsIdentity : Obligations.DecodeOfEncodeIsIdentity := by
  intro p i hwf
  cases i with
  | nop => exact decode_eq_nop_iff.2 rfl
  | configure => exact decode_eq_configure_iff.2 rfl
  | encode thr tlm =>
    have hthr : thr < 2 ^ p.thrWidth := of_decide_eq_true hwf
    have hword := encode_toNat p hthr tlm
    have hlt := encodeFields_lt hthr tlm
    have hle := two_pow_thrWidth_succ_le p
    generalize encode p (.encode thr tlm) = w at hword
    have hop : w.toNat / 2 ^ 30 = 2 := by omega
    have hlow : w.toNat % 2 ^ 30 = 2 ^ p.thrWidth * tlm.toNat + thr := by omega
    have hrsv : w.toNat % 2 ^ 30 / 2 ^ (p.thrWidth + 1) = 0 := Nat.div_eq_of_lt (hlow ▸ hlt)
    have hsum : 2 ^ p.thrWidth * (w.getLsbD p.thrWidth).toNat + w.toNat % 2 ^ p.thrWidth
        = 2 ^ p.thrWidth * tlm.toNat + thr := Nat.add_left_cancel ((toNat_eq_of_encodeWord hop hrsv).symm.trans hword)
    have hthrField : w.toNat % 2 ^ p.thrWidth = thr := by
      rw [← Nat.mod_mod, ← Nat.mul_add_mod (2 ^ p.thrWidth) (w.getLsbD p.thrWidth).toNat, hsum, Nat.mul_add_mod,
        Nat.mod_eq_of_lt hthr]
    rw [hthrField, Nat.add_right_cancel_iff, Nat.mul_right_inj (Nat.two_pow_pos _).ne'] at hsum
    have htlmField : w.getLsbD p.thrWidth = tlm := by
      rw [← Bool.ofNat_toNat (w.getLsbD p.thrWidth), hsum, Bool.ofNat_toNat]
    exact decode_eq_encode_iff.2 ⟨hop, hrsv, hthrField.symm, htlmField.symm⟩

/-- Settles O3: NOP and CONFIGURE have one word; the word of an ENCODE is the sum of the fields that it is decoded to. -/
theorem encodeOfDecodeIsIdentity : Obligations.EncodeOfDecodeIsIdentity := by
  intro p w i h
  cases i with
  | nop => exact ⟨rfl, (decode_eq_nop_iff.1 h).symm⟩
  | configure => exact ⟨rfl, (decode_eq_configure_iff.1 h).symm⟩
  | encode thr tlm =>
    obtain ⟨hop, hrsv, rfl, rfl⟩ := decode_eq_encode_iff.1 h
    have hthr : w.toNat % 2 ^ p.thrWidth < 2 ^ p.thrWidth := Nat.mod_lt _ (Nat.two_pow_pos _)
    refine ⟨decide_eq_true hthr, BitVec.eq_of_toNat_eq ?_⟩
    rw [encode_toNat p hthr, ← toNat_eq_of_encodeWord hop hrsv]

/-- Different instructions that a word can spell have different words. -/
theorem encode_injective {p : Params} {i j : Instr} (hi : i.wf p = true) (hj : j.wf p = true)
    (h : encode p i = encode p j) : i = j :=
  Except.ok.inj ((decodeOfEncodeIsIdentity p i hi).symm.trans (h ▸ decodeOfEncodeIsIdentity p j hj))

/-! ### The opcode table and the reserved words -/

/-- The word of an instruction depends on `W_THR` only. -/
theorem encode_congr {p q : Params} (h : p.thrWidth = q.thrWidth) (i : Instr) : encode p i = encode q i := by
  cases i with
  | nop | configure => rfl
  | encode thr tlm => rw [encode, encode, h]

/-- At `W_THR = 16` the words of an ENCODE are those of its row. -/
theorem decode_eq_encode_iff_row {p : Params} (hp : p.thrWidth = 16) {w : Word} {thr : Nat} {tlm : Bool} :
    decode p w = .ok (.encode thr tlm)
      ↔ w &&& 0xFFFE0000#32 = 0x80000000#32 ∧ thr = w.toNat % 2 ^ 16 ∧ tlm = w.getLsbD 16 := by
  constructor
  · intro h
    obtain ⟨hwf, rfl⟩ := encodeOfDecodeIsIdentity p w _ h
    obtain ⟨_, _, hthr, htlm⟩ := decode_eq_encode_iff.1 h
    have hrow := (Laws.EncodingRow.encode thr tlm).2 (by rwa [Instr.wf, hp] at hwf)
    rw [encode_congr (q := Params.default) hp] at hthr htlm ⊢
    rw [hp] at hthr htlm
    exact ⟨eq_of_beq hrow, hthr, htlm⟩
  · rintro ⟨hrow, rfl, rfl⟩
    exact decode_of_encodeRow hp hrow

/-- Settles O4: each row is the equivalence of the decoder for its instruction. -/
theorem decodeFollowsOpcodeTable : Obligations.DecodeFollowsOpcodeTable := by
  intro p w
  have hfull : w &&& 0xFFFFFFFF#32 = w := BitVec.and_allOnes
  rw [hfull]
  exact ⟨decode_eq_nop_iff, decode_eq_configure_iff,
    fun _ _ => ⟨decode_eq_encode_iff, fun hp => decode_eq_encode_iff_row hp⟩⟩

/-- Settles O5: the equivalence of the decoder for the reserved words, and the reserved field of ENCODE at its default
place. -/
theorem reservedWordsAreRejected : Obligations.ReservedWordsAreRejected := by
  refine fun p w => ⟨decode_eq_error_iff, fun hp => ?_⟩
  rw [hp, BitVec.extractLsb'_toNat, Nat.shiftRight_eq_div_pow]
  omega

/-! ### The counts of R69 -/

/-- The words of the ENCODEs whose throttle is below a bound that the throttle field can spell. -/
theorem encodeWords_eq_range (p : Params) {n : Nat} (hn : n ≤ 2 ^ p.thrWidth) :
    { w : Word | ∃ thr tlm, decode p w = .ok (.encode thr tlm) ∧ thr < n }
      = Set.range fun c : Fin n × Bool => encode p (.encode c.1 c.2) := by
  ext w
  constructor
  · rintro ⟨thr, tlm, hd, hthr⟩
    exact ⟨(⟨thr, hthr⟩, tlm), (encodeOfDecodeIsIdentity p w _ hd).2⟩
  · rintro ⟨⟨thr, tlm⟩, rfl⟩
    exact ⟨thr, tlm, decodeOfEncodeIsIdentity p _ (decide_eq_true (thr.isLt.trans_le hn)), thr.isLt⟩

/-- Two words for each throttle, one per telemetry bit. -/
theorem encodeWords_ncard (p : Params) {n : Nat} (hn : n ≤ 2 ^ p.thrWidth) :
    { w : Word | ∃ thr tlm, decode p w = .ok (.encode thr tlm) ∧ thr < n }.ncard = 2 * n := by
  have hinj : Function.Injective fun c : Fin n × Bool => encode p (.encode c.1 c.2) := by
    rintro ⟨a, x⟩ ⟨b, y⟩ h
    have hwf : ∀ (c : Fin n) (z : Bool), (Instr.encode c z).wf p = true :=
      fun c _ => decide_eq_true (c.isLt.trans_le hn)
    obtain ⟨hthr, rfl⟩ := Instr.encode.inj (encode_injective (hwf a x) (hwf b y) h)
    rw [Fin.ext hthr]
  rw [encodeWords_eq_range p hn, ← Nat.card_coe_set_eq, Nat.card_range_of_injective hinj, Nat.card_prod, Nat.card_fin,
    Nat.card_eq_two_iff.2 ⟨false, true, by decide, by ext b; cases b <;> simp⟩, Nat.mul_comm]

/-- An ENCODE word holds a throttle that its field spells. -/
theorem encodeWords_eq_lt (p : Params) :
    { w : Word | ∃ thr tlm, decode p w = .ok (.encode thr tlm) }
      = { w : Word | ∃ thr tlm, decode p w = .ok (.encode thr tlm) ∧ thr < 2 ^ p.thrWidth } := by
  ext w
  constructor
  · rintro ⟨thr, tlm, hd⟩
    exact ⟨thr, tlm, hd, of_decide_eq_true (encodeOfDecodeIsIdentity p w _ hd).1⟩
  · rintro ⟨thr, tlm, hd, _⟩
    exact ⟨thr, tlm, hd⟩

/-- The legal words: NOP's, CONFIGURE's and the ENCODE words. -/
theorem legalWords_eq (p : Params) :
    { w : Word | ∃ i, decode p w = .ok i }
      = insert 0x00000000#32 (insert 0x40000000#32 { w : Word | ∃ thr tlm, decode p w = .ok (.encode thr tlm) }) := by
  ext w
  simp only [Set.mem_insert_iff, Set.mem_ofPred_eq, ← decode_eq_nop_iff (p := p), ← decode_eq_configure_iff (p := p)]
  constructor
  · rintro ⟨_ | _ | ⟨thr, tlm⟩, hd⟩
    · exact .inl hd
    · exact .inr (.inl hd)
    · exact .inr (.inr ⟨thr, tlm, hd⟩)
  · rintro (hd | hd | ⟨thr, tlm, hd⟩) <;> exact ⟨_, hd⟩

/-- Settles O6: two words for each throttle, and the words of NOP and CONFIGURE. -/
theorem encodingCounts : Obligations.EncodingCounts := by
  intro p hp
  have hpow : 2 ^ p.thrWidth = 65536 := hp ▸ rfl
  have hencode : { w : Word | ∃ thr tlm, decode p w = .ok (.encode thr tlm) }.ncard = 131072 := by
    rw [encodeWords_eq_lt, encodeWords_ncard p le_rfl, hpow]
  refine ⟨hencode, ?accepted, ?legal⟩
  case accepted =>
    have h := encodeWords_ncard p (n := 2048) (by omega)
    simpa only [Nat.lt_succ_iff, ← Nat.card_coe_set_eq, Set.coe_ofPred] using h
  case legal =>
    have hc : 0x40000000#32 ∉ { w : Word | ∃ thr tlm, decode p w = .ok (.encode thr tlm) } := by
      simp [decode_eq_configure_iff.2 rfl]
    have hn : 0x00000000#32 ∉ insert 0x40000000#32 { w : Word | ∃ thr tlm, decode p w = .ok (.encode thr tlm) } := by
      simp [decode_eq_nop_iff.2 rfl]
    rw [← Set.coe_ofPred, Nat.card_coe_set_eq, legalWords_eq, Set.ncard_insert_of_notMem hn,
      Set.ncard_insert_of_notMem hc, hencode]

/-! ### The examples and NOP -/

/-- Settles O1: the decoder is run on the words of R72. -/
theorem exampleWordsDecode : Obligations.ExampleWordsDecode := by
  unfold Obligations.ExampleWordsDecode
  decide

/-- Settles O14: NOP answers in every state, and below `OP = 01` its word is the only one that is not reserved. -/
theorem nopAnswersOkAndChangesNothing : Obligations.NopAnswersOkAndChangesNothing := by
  refine ⟨fun _ => rfl,
    fun p w hw => ⟨fun h => decode_eq_nop_iff.2 h, fun hne => decode_eq_error_iff.2 (.inr (.inl ?_))⟩⟩
  have : w.toNat ≠ 0 := fun h => hne (BitVec.eq_of_toNat_eq h)
  omega

end Sys2Proof
end

section
/-! PROOFS. 41_frame_checksum.md, its properties. The checksum is linear over XOR, so what a flip does to it is what it does
to the checksum of the flipped bits alone (R105 to R108). -/

namespace Sys2Proof.Machine

/-! ### Linearity -/

theorem csum_xor (p q : BitVec 12) : csum (p ^^^ q) = csum p ^^^ csum q := by
  simp only [csum, BitVec.extractLsb'_xor]
  ac_rfl

/-- A payload bit counts for the checksum bit below it (R103). -/
theorem csum_twoPow {j : Nat} (hj : j < 12) : csum (BitVec.twoPow 12 j) = BitVec.twoPow 4 (j % 4) := by
  revert j
  decide

theorem csum_flip (p : BitVec 12) {j : Nat} (hj : j < 12) :
    csum (p ^^^ BitVec.twoPow 12 j) = csum p ^^^ BitVec.twoPow 4 (j % 4) := by
  rw [csum_xor, csum_twoPow hj]

/-- Two flips of bits over the same checksum bit cancel (R108). -/
theorem csum_flip_flip (p : BitVec 12) {i j : Nat} (hi : i < 12) (hj : j < 12) (h : i % 4 = j % 4) :
    csum (p ^^^ BitVec.twoPow 12 i ^^^ BitVec.twoPow 12 j) = csum p := by
  rw [csum_flip _ hj, csum_flip _ hi, h, BitVec.xor_assoc, BitVec.xor_self, BitVec.xor_zero]

/-- The checksum field of a frame against the checksum of its payload field: zero exactly when the frame is well-formed. -/
def syndrome (F : BitVec 16) : BitVec 4 := F.extractLsb' 0 4 ^^^ csum (F.extractLsb' 4 12)

theorem wellFormedFrame_eq_syndrome (F : BitVec 16) : wellFormedFrame F = (syndrome F == 0#4) := by
  rw [wellFormedFrame, syndrome, Bool.eq_iff_iff, beq_iff_eq, beq_iff_eq, BitVec.xor_eq_zero_iff]

theorem syndrome_xor (F G : BitVec 16) : syndrome (F ^^^ G) = syndrome F ^^^ syndrome G := by
  simp only [syndrome, BitVec.extractLsb'_xor, csum_xor]
  ac_rfl

/-- Every bit of a frame counts for the syndrome. -/
theorem syndrome_twoPow_ne_zero {j : Nat} (hj : j < 16) : syndrome (BitVec.twoPow 16 j) ≠ 0#4 := by
  revert j
  decide

/-- Settles O28: by linearity a flip adds the syndrome of the flipped bit, which is not zero. -/
theorem singleBitErrorsAreDetected : Obligations.SingleBitErrorsAreDetected := by
  refine ⟨csum_xor, fun p j hj => csum_flip p hj, fun F j hj hF => ?_⟩
  rw [wellFormedFrame_eq_syndrome, beq_iff_eq] at hF
  rw [wellFormedFrame_eq_syndrome, syndrome_xor, hF, BitVec.zero_xor, beq_eq_false_iff_ne]
  exact syndrome_twoPow_ne_zero hj

/-- Settles O29: a pair over the same checksum bit cancels, so that the third flip is a single one. -/
theorem doubleFlipsEscapeTripleFlipsDoNot : Obligations.DoubleFlipsEscapeTripleFlipsDoNot := by
  refine fun p j => ⟨fun hj => ?_, fun hj => ?_, fun hj => ?_⟩
  · exact csum_flip_flip p (by omega) hj (by omega)
  · exact csum_flip_flip p (by omega) hj (by omega)
  · have hmod : (j + 8) % 4 = j := by omega
    rw [csum_flip _ hj, csum_flip_flip p (by omega) (by omega) (by omega), hmod]

/-! ### Commands and frames -/

/-- Settles O30: the throttle and the telemetry bit are read back from the frame. -/
theorem distinctCommandsDistinctFrames : Obligations.DistinctCommandsDistinctFrames := by
  intro thr₁ thr₂ tlm₁ tlm₂ h₁ h₂ h
  constructor
  · rw [← frameOf_toNat_div h₁ tlm₁, h, frameOf_toNat_div h₂ tlm₂]
  · rw [← frameOf_telemetry (throttleOf thr₁) tlm₁, h, frameOf_telemetry]

/-- The payload field and the checksum of it determine a well-formed frame (R104, R105). -/
theorem frameOfPayload_of_wellFormed {F : BitVec 16} (h : F.extractLsb' 0 4 = csum (F.extractLsb' 4 12)) :
    frameOfPayload (F.extractLsb' 4 12) = F := by
  rw [frameOfPayload_eq_append, ← h]
  exact BitVec.extractLsb'_append_extractLsb'

/-- Every payload is one of a throttle and a telemetry bit (R102). -/
theorem payloadOf_fields (p : BitVec 12) : payloadOf (p.extractLsb' 1 11) (p.getLsbD 0) = p := by
  have hbit : BitVec.ofBool (p.getLsbD 0) = p.extractLsb' 0 1 := by
    ext i hi
    obtain rfl : i = 0 := by omega
    simp
  rw [payloadOf_eq_append, hbit]
  exact BitVec.extractLsb'_append_extractLsb'

@[simp] theorem frameOfPayload_payload (p : BitVec 12) : (frameOfPayload p).extractLsb' 4 12 = p := by
  rw [frameOfPayload_eq_append, BitVec.extractLsb'_append_eq_left]

/-- The well-formed frames are those of the payloads (R105). -/
theorem wellFormed_eq_range :
    { F : BitVec 16 | F.extractLsb' 0 4 = csum (F.extractLsb' 4 12) } = Set.range frameOfPayload := by
  ext F
  constructor
  · exact fun h => ⟨_, frameOfPayload_of_wellFormed h⟩
  · rintro ⟨p, rfl⟩
    rw [Set.mem_ofPred_eq, frameOfPayload_checksum, frameOfPayload_payload]

/-- Settles O31: the well-formed values are the frames of the payloads, each payload is one of a command, and there are as
many as payloads. -/
theorem wellFormedFramesAreTheEncodedOnes : Obligations.WellFormedFramesAreTheEncodedOnes := by
  refine ⟨fun F => ⟨fun h => ?_, ?_⟩, ?_⟩
  · set p := F.extractLsb' 4 12
    have hthr : throttleOf (p.extractLsb' 1 11).toNat = p.extractLsb' 1 11 :=
      (BitVec.ofNat_toNat 11 _).trans (BitVec.setWidth_eq _)
    refine ⟨(p.extractLsb' 1 11).toNat, p.getLsbD 0, Nat.le_of_lt_succ (p.extractLsb' 1 11).isLt, ?_⟩
    rw [hthr, frameOf, payloadOf_fields, frameOfPayload_of_wellFormed h]
  · rintro ⟨thr, tlm, -, rfl⟩
    rw [frameOf, frameOfPayload_checksum, frameOfPayload_payload]
  · have hinj : Function.Injective frameOfPayload := fun p q h => by
      rw [← frameOfPayload_payload p, h, frameOfPayload_payload]
    have hcard : Nat.card (BitVec 12) = 4096 := by
      rw [Nat.card_eq_fintype_card, ← FinEnum.card_eq_fintypeCard]
      rfl
    rw [← Set.coe_ofPred, wellFormed_eq_range, Nat.card_range_of_injective hinj, hcard]

end Sys2Proof.Machine
end

section
/-! PROOFS. 42_symbol_mapper.md, its properties, for a table that meets R27: the buffer determines its frame, every data
symbol lasts `PERIOD` ticks, and a played buffer ends in the gap (R124 to R127). -/

namespace Sys2Proof.Machine

/-! ### The inverse mapping -/

/-- A table whose two data symbols differ in their high phase gives every bit back. -/
theorem bitOf_bitsym {lut : Fin 3 → Symbol} (h : (lut 0).high < (lut 1).high) (b : Bool) :
    bitOf lut (bitsym lut b) = some b := by
  cases b with
  | false => simp [bitOf, h.ne]
  | true => simp [bitOf]

/-- The first `n` symbols, which carry the low `n` bits of `x` most significant first, are read back behind what has been
read before. -/
theorem bitsToNat_bitsym {lut : Fin 3 → Symbol} (h : (lut 0).high < (lut 1).high) (x : Nat) (rest : List Symbol)
    (n acc : Nat) :
    bitsToNat lut n ((List.range n).map (fun i => bitsym lut (x.testBit (n - 1 - i))) ++ rest) acc
      = some (2 ^ n * acc + x % 2 ^ n) := by
  induction n generalizing acc with
  | zero => simp [bitsToNat, Nat.mod_one]
  | succ n ih =>
    have htail : (fun i => bitsym lut (x.testBit (n + 1 - 1 - i))) ∘ Nat.succ
        = fun i => bitsym lut (x.testBit (n - 1 - i)) := by
      funext i
      simp only [Function.comp, Nat.add_sub_cancel, Nat.sub_sub, Nat.add_comm 1 i]
    rw [List.range_succ_eq_map, List.map_cons, List.map_map, htail, List.cons_append, bitsToNat]
    simp only [Nat.add_sub_cancel, Nat.sub_zero, bitOf_bitsym h]
    rw [ih, Nat.mod_pow_succ, ← Nat.toNat_testBit, Nat.pow_succ]
    congr 1
    ring

/-- Settles O32: the sixteen data symbols are read back to the frame. -/
theorem bufferDeterminesItsFrame : Obligations.BufferDeterminesItsFrame := by
  rintro p b F ⟨-, -, hlt, -⟩
  have hread := bitsToNat_bitsym (lut := b.lut) hlt F.toNat [b.lut 2] 16 0
  have hbuffer : symbolsOf b.lut F
      = (List.range 16).map (fun i => bitsym b.lut (F.toNat.testBit (16 - 1 - i))) ++ [b.lut 2] := rfl
  rw [frameOfSymbols, hbuffer, hread, Option.map_some, Nat.mul_zero, Nat.zero_add, Nat.mod_eq_of_lt F.isLt,
    BitVec.ofNat_toNat, BitVec.setWidth_eq]

/-! ### Durations -/

/-- Either data symbol lasts `PERIOD` ticks (R124). -/
theorem bitsym_ticks {p : Params} {b : Block p} (h : TableOk p b) (x : Bool) :
    (bitsym b.lut x).ticks = b.period.toNat := by
  obtain ⟨hone, hzero, -⟩ := h
  cases x with
  | false => exact hzero
  | true => exact hone

/-- Either data symbol has a high phase (R124). -/
theorem bitsym_high_pos {p : Params} {b : Block p} (h : TableOk p b) (x : Bool) : 0 < (bitsym b.lut x).high := by
  obtain ⟨-, -, hlt, hrange, -⟩ := h
  have hzero : 0 < b.t0h.toNat := lt_of_lt_of_le p.minPhase_pos (hrange _ (by simp)).1
  cases x with
  | false => exact hzero
  | true => exact hzero.trans hlt

/-- Settles O33: both pairs of R27 sum to `PERIOD`, so the longer high phase goes with the shorter low one. -/
theorem dataSymbolsHaveConstantPeriod : Obligations.DataSymbolsHaveConstantPeriod := by
  intro p b F h
  obtain ⟨hone, hzero, hlt, -⟩ := id h
  have hlow : b.t1l.toNat < b.t0l.toNat := by omega
  exact ⟨fun i hi => ⟨_, symbolsOf_data _ F hi, bitsym_ticks h _, bitsym_high_pos h _⟩,
    ⟨_, symbolsOf_gap _ F, rfl, rfl⟩, hlt, hlow⟩

/-! ### The played buffer -/

theorem symbol_levels_length (y : Symbol) : y.levels.length = y.ticks := by
  simp [Symbol.levels, Symbol.ticks]

/-- A buffer is played for as many ticks as it lasts. -/
theorem lineLevels_length (ss : List Symbol) : (lineLevels ss).length = bufferTicks ss := by
  simp only [lineLevels, bufferTicks, List.length_flatMap, symbol_levels_length]

theorem lineLevels_append (xs ys : List Symbol) : lineLevels (xs ++ ys) = lineLevels xs ++ lineLevels ys :=
  List.flatMap_append

/-- The sixteen data symbols of a frame. -/
def dataSymbols (lut : Fin 3 → Symbol) (F : BitVec 16) : List Symbol :=
  (List.range 16).map (fun i => bitsym lut (F.getLsbD (15 - i)))

theorem symbolsOf_eq_dataSymbols_append (lut : Fin 3 → Symbol) (F : BitVec 16) :
    symbolsOf lut F = dataSymbols lut F ++ [lut 2] := rfl

/-- The data symbols last sixteen periods (R124). -/
theorem dataSymbols_ticks {p : Params} {b : Block p} (h : TableOk p b) (F : BitVec 16) :
    bufferTicks (dataSymbols b.lut F) = 16 * b.period.toNat := by
  have hconst : (dataSymbols b.lut F).map Symbol.ticks = List.replicate 16 b.period.toNat := by
    simp only [dataSymbols, List.map_map, Function.comp_def, bitsym_ticks h, List.map_const', List.length_range]
  rw [bufferTicks, hconst, List.sum_replicate, smul_eq_mul]

/-- The whole buffer lasts sixteen periods and the gap (R127). -/
theorem symbolsOf_ticks {p : Params} {b : Block p} (h : TableOk p b) (F : BitVec 16) :
    bufferTicks (symbolsOf b.lut F) = 16 * b.period.toNat + b.tgap.toNat := by
  have hsplit : bufferTicks (symbolsOf b.lut F) = bufferTicks (dataSymbols b.lut F) + (b.lut 2).ticks := by
    simp [symbolsOf_eq_dataSymbols_append, bufferTicks]
  rw [hsplit, dataSymbols_ticks h, lut_two, Symbol.ticks, Nat.zero_add]

/-- The line starts high: the first data symbol has a high phase (R127). -/
theorem lineLevels_symbolsOf_head {p : Params} {b : Block p} (h : TableOk p b) (F : BitVec 16) :
    (lineLevels (symbolsOf b.lut F)).head? = some true := by
  obtain ⟨n, hn⟩ := Nat.exists_eq_add_one.2 (bitsym_high_pos h (F.getLsbD 15))
  have hcons : symbolsOf b.lut F = bitsym b.lut (F.getLsbD 15) :: (symbolsOf b.lut F).tail := rfl
  rw [hcons, lineLevels, List.flatMap_cons, Symbol.levels, hn, List.replicate_succ]
  rfl

/-- Settles O34: the data symbols last sixteen periods, and what is played after them is the reset symbol. -/
theorem playedBufferEndsInTheGap : Obligations.PlayedBufferEndsInTheGap := by
  intro p b F h
  refine ⟨symbolsOf_ticks h F, (lineLevels_length _).trans (symbolsOf_ticks h F), lineLevels_symbolsOf_head h F, ?_⟩
  rw [symbolsOf_eq_dataSymbols_append, lineLevels_append,
    List.drop_left' ((lineLevels_length _).trans (dataSymbols_ticks h F))]
  simp [lineLevels, Symbol.levels]

end Sys2Proof.Machine
end

section
/-! PROOFS. 00_scope.md and 40_configure.md. The constraints on a parameter set; the checks of R87, one lemma per reason; and
the operands that CONFIGURE accepts at the defaults (R7, R87, R89 to R91). -/

namespace Sys2Proof

/-! ### Parameter sets -/

/-- The check of R7 lets a set through exactly when it meets the constraints. -/
theorem check_eq_some_iff (p : RawParams) : (∃ q : Params, p.check = some q ∧ q.toRawParams = p) ↔ p.wf = true := by
  unfold RawParams.check
  split
  · next hwf => exact iff_of_true ⟨_, rfl, rfl⟩ hwf
  · next hwf => exact iff_of_false (fun ⟨_, h, _⟩ => nomatch h) hwf

/-- Settles O20: `RawParams.wf` is the conjunction of the constraints. -/
theorem parameterConstraintsAreChecked : Obligations.ParameterConstraintsAreChecked := by
  intro p
  rw [check_eq_some_iff]
  simp only [RawParams.wf, Bool.and_eq_true, decide_eq_true_eq, and_assoc, gt_iff_lt, ge_iff_le]

end Sys2Proof

namespace Sys2Proof.Machine

/-! ### The checks of R87 -/

section checks

variable {p : Params} {R B U : Nat}

theorem firstFailure_zeroResolution (hR : R = 0) : firstFailure p R B U = some .zeroResolution := by
  rw [firstFailure, if_pos hR]

theorem firstFailure_zeroBitRate (hR : R ≠ 0) (hB : B = 0) : firstFailure p R B U = some .zeroBitRate := by
  rw [firstFailure, if_neg hR, if_pos hB]

theorem firstFailure_rateExceedsResolution (hR : R ≠ 0) (hB : B ≠ 0) (hBR : R < B) :
    firstFailure p R B U = some .rateExceedsResolution := by
  rw [firstFailure, if_neg hR, if_neg hB, if_pos hBR]

/-- Past the first three checks the computed counts decide. -/
theorem firstFailure_eq_timingFailure (hR : R ≠ 0) (hB : B ≠ 0) (hBR : B ≤ R) :
    firstFailure p R B U = timingFailure p (timingOf p R B U) := by
  rw [firstFailure, if_neg hR, if_neg hB, if_neg hBR.not_gt]

variable {t : Timing}

theorem exists_phase_lt_iff {m : Nat} : (∃ d ∈ [t.t1h, t.t1l, t.t0h, t.t0l], d < m) ↔ t.shortest < m := by
  simp [shortest_lt_iff]

theorem exists_lt_phase_iff {m : Nat} : (∃ d ∈ [t.t1h, t.t1l, t.t0h, t.t0l], m < d) ↔ m < t.longest := by
  simp [lt_longest_iff]

theorem forall_le_phase_iff {m : Nat} : (∀ d ∈ [t.t1h, t.t1l, t.t0h, t.t0l], m ≤ d) ↔ ¬ t.shortest < m := by
  simp [shortest_lt_iff]

theorem forall_phase_le_iff {m : Nat} : (∀ d ∈ [t.t1h, t.t1l, t.t0h, t.t0l], d ≤ m) ↔ ¬ m < t.longest := by
  simp [lt_longest_iff]

/-! Checks 4 to 8, one lemma per reason: the earlier ones pass and this one holds. -/

theorem timingFailure_phaseTooShort (h4 : ∃ d ∈ [t.t1h, t.t1l, t.t0h, t.t0l], d < p.minPhaseTicks) :
    timingFailure p t = some .phaseTooShort := by
  rw [timingFailure, if_pos (exists_phase_lt_iff.1 h4)]

variable (h4 : ∀ d ∈ [t.t1h, t.t1l, t.t0h, t.t0l], p.minPhaseTicks ≤ d)
include h4

theorem timingFailure_durationsCollapse (h5 : t.t1h ≤ t.t0h) : timingFailure p t = some .durationsCollapse := by
  rw [timingFailure, if_neg (forall_le_phase_iff.1 h4), if_pos h5]

variable (h5 : t.t0h < t.t1h)
include h5

theorem timingFailure_durationOverflow (h6 : ∃ d ∈ [t.t1h, t.t1l, t.t0h, t.t0l], p.durMax < d) :
    timingFailure p t = some .durationOverflow := by
  rw [timingFailure, if_neg (forall_le_phase_iff.1 h4), if_neg h5.not_ge, if_pos (exists_lt_phase_iff.1 h6)]

variable (h6 : ∀ d ∈ [t.t1h, t.t1l, t.t0h, t.t0l], d ≤ p.durMax)
include h6

theorem timingFailure_gapTooShort (h7 : t.tgap < p.minGapTicks) : timingFailure p t = some .gapTooShort := by
  rw [timingFailure, if_neg (forall_le_phase_iff.1 h4), if_neg h5.not_ge, if_neg (forall_phase_le_iff.1 h6), if_pos h7]

theorem timingFailure_gapOverflow (h7 : p.minGapTicks ≤ t.tgap) (h8 : p.durMax < t.tgap) :
    timingFailure p t = some .gapOverflow := by
  rw [timingFailure, if_neg (forall_le_phase_iff.1 h4), if_neg h5.not_ge, if_neg (forall_phase_le_iff.1 h6),
    if_neg h7.not_gt, if_pos h8]

end checks

/-- A failing check is answered with its code and no register is written (R89). -/
theorem answersReason_of_firstFailure {s : State} {e : CfgReason} (hphase : s.block.phase = .unconfigured)
    (hfail : firstFailure s.par (portRes s) (portRate s) (portDelay s) = some e) : AnswersReason s e.code :=
  execConfigure_failed hphase hfail

/-- Settles O16: in each clause the earlier checks pass and this one holds, so that it is the first failure. -/
theorem configureReportsFirstFailingCheck : Obligations.ConfigureReportsFirstFailingCheck := by
  rintro s _ _ _ _ _ _ _ _ hphase rfl rfl rfl rfl rfl rfl rfl rfl
  have early {e : CfgReason} := answersReason_of_firstFailure (s := s) (e := e) hphase
  have late {e : CfgReason} (hR : portRes s ≠ 0) (hB : portRate s ≠ 0) (hBR : portRate s ≤ portRes s)
      (h : timingFailure s.par (timingOf s.par (portRes s) (portRate s) (portDelay s)) = some e) :
      AnswersReason s e.code := early ((firstFailure_eq_timingFailure hR hB hBR).trans h)
  exact ⟨fun hR => early (firstFailure_zeroResolution hR),
    fun hR hB => early (firstFailure_zeroBitRate hR hB),
    fun hR hB hBR => early (firstFailure_rateExceedsResolution hR hB hBR),
    fun hR hB hBR h4 => late hR hB hBR (timingFailure_phaseTooShort h4),
    fun hR hB hBR h4 h5 => late hR hB hBR (timingFailure_durationsCollapse h4 h5),
    fun hR hB hBR h4 h5 h6 => late hR hB hBR (timingFailure_durationOverflow h4 h5 h6),
    fun hR hB hBR h4 h5 h6 h7 => late hR hB hBR (timingFailure_gapTooShort h4 h5 h6 h7),
    fun hR hB hBR h4 h5 h6 h7 h8 => late hR hB hBR (timingFailure_gapOverflow h4 h5 h6 h7 h8)⟩

/-! ### The outcomes of CONFIGURE -/

/-- Settles O17. -/
theorem configureWhileReadyIsTurnedAway : Obligations.ConfigureWhileReadyIsTurnedAway :=
  fun _ hphase => execConfigure_ready hphase

/-- CONFIGURE makes an UNCONFIGURED block READY exactly on acceptable operands (R88, R89). -/
theorem execConfigure_ready_iff {s : State} (hphase : s.block.phase = .unconfigured) :
    (∃ t : State, execConfigure s = .next t ∧ t.block.phase = .ready) ↔ AcceptablePorts s.par s.ports := by
  rw [AcceptablePorts, ← firstFailure_eq_none]
  constructor
  · rintro ⟨t, h, hready⟩
    by_contra hne
    obtain ⟨e, hfail⟩ := Option.ne_none_iff_exists'.1 hne
    cases h.symm.trans (execConfigure_failed hphase hfail)
    simp [hphase] at hready
  · exact fun hpass => ⟨_, execConfigure_accepted hphase hpass, rfl⟩

/-- A reason that CONFIGURE hands out is 0 or the code of the check that failed. -/
theorem execConfigure_reason {s t : State} {r : Response} (h : execConfigure s = .next t)
    (hout : t.outbox = s.outbox ++ [r]) :
    r.reason = 0#4
      ∨ ∃ e, firstFailure s.par (portRes s) (portRate s) (portDelay s) = some e ∧ r.reason = e.code := by
  cases hphase : s.block.phase with
  | ready =>
    cases h.symm.trans (execConfigure_ready hphase)
    cases handedOut_eq hout
    exact .inl rfl
  | unconfigured =>
    rcases (firstFailure s.par (portRes s) (portRate s) (portDelay s)).eq_none_or_eq_some with hpass | ⟨e, hfail⟩
    · cases h.symm.trans (execConfigure_accepted hphase hpass)
      cases handedOut_eq hout
      exact .inl rfl
    · cases h.symm.trans (execConfigure_failed hphase hfail)
      cases handedOut_eq hout
      exact .inr ⟨e, hfail, rfl⟩

/-! ### The defaults -/

/-- The acceptable operands at the defaults: a period of 3 to 43690 ticks and a gap of 1 to 32767 ticks (R91). -/
theorem acceptable_default_iff (R B U : Nat) :
    Acceptable Params.default R B U
      ↔ 0 < B ∧ 3 ≤ R / B ∧ R / B ≤ 43690 ∧ 1000000 ≤ R * U ∧ R * U < 32768000000 := by
  have hperiod : 0 < B → 3 ≤ R / B → B ≤ R := fun hB h =>
    ((Nat.div_pos_iff.1 (lt_of_lt_of_le (by decide) h)).2)
  simp only [Acceptable, Params.default, Params.durMax, List.forall_mem_cons, List.not_mem_nil, false_implies, implies_true,
    and_true]
  omega

/-- Reason 5 is reported only on phases that are long enough and two high counts that do not differ. -/
theorem firstFailure_collapse_inversion {p : Params} {R B U : Nat} (h : firstFailure p R B U = some .durationsCollapse) :
    ¬ (timingOf p R B U).shortest < p.minPhaseTicks ∧ (timingOf p R B U).t1h ≤ (timingOf p R B U).t0h := by
  unfold firstFailure timingFailure at h
  split_ifs at h with _ _ _ hshort hcollapse <;> simp at h
  exact ⟨hshort, hcollapse⟩

/-- At the defaults a period whose phases are long enough has two different high counts (R91). -/
theorem firstFailure_default_ne_collapse (R B U : Nat) :
    firstFailure Params.default R B U ≠ some .durationsCollapse := by
  intro h
  obtain ⟨hshort, hcollapse⟩ := firstFailure_collapse_inversion h
  simp only [shortest_lt_iff, timingOf, highTicks, Params.default] at hshort hcollapse
  omega

/-- Settles O18: CONFIGURE succeeds on the acceptable operands, which at the defaults are those of R91. -/
theorem defaultParametersAcceptedRange : Obligations.DefaultParametersAcceptedRange := by
  intro s R B U hpar hphase hR hB hU
  rw [exec_configure, execConfigure_ready_iff hphase, AcceptablePorts, ← hR, ← hB, ← hU, hpar, acceptable_default_iff]

/-- The codes of R87 are different. -/
theorem cfgReason_eq_of_code_eq_five {e : CfgReason} (h : e.code = 5#4) : e = .durationsCollapse := by
  revert h
  cases e <;> decide

/-- Settles O19: reason 5 is the code of one check, which is never the first to fail at the defaults. -/
theorem defaultParametersNeverCollapse : Obligations.DefaultParametersNeverCollapse := by
  intro s t r hpar h hout hreason
  rcases execConfigure_reason h hout with hzero | ⟨e, hfail, hcode⟩
  · simp [hzero] at hreason
  · rw [cfgReason_eq_of_code_eq_five (hcode.symm.trans hreason)] at hfail
    generalize portRes s = R, portRate s = B, portDelay s = U at hfail
    rw [hpar] at hfail
    exact firstFailure_default_ne_collapse R B U hfail

end Sys2Proof.Machine
end

section
/-! PROOFS. The invariant of the machine and the registers over runs. What a step can do to the registers is said once; that
every response has the form of R66, and that a table of R27 gives buffers of R121 to R125, follow (R26, R27, R28, R90). -/

namespace Sys2Proof.Machine

/-! ### What a step does to the registers -/

/-- The three things a step can do to the registers: leave them; put them at their reset value, on a reset presented; or
make the register write of R88, on a CONFIGURE presented to an UNCONFIGURED block, answered with OK. -/
inductive RegisterChange (s : State) : Block s.par → List Response → Prop where
  | kept (new : List Response) : RegisterChange s s.block new
  | reset (rest : List (Event s.par.cfgWidth)) (hi : s.inbox = .reset :: rest) : RegisterChange s (Block.reset s.par) []
  | configured (q : Request s.par.cfgWidth) (rest : List (Event s.par.cfgWidth)) (hi : s.inbox = .request q :: rest)
      (hd : decode s.par q.word = .ok .configure) (hp : s.block.phase = .unconfigured)
      (hpass : firstFailure s.par q.ports.resolutionHz.toNat q.ports.bitRateHz.toNat q.ports.postDelayUs.toNat = none) :
      RegisterChange s (configuredBlock s.par q.ports hpass) [⟨.ok, 0#4, none, none⟩]

/-- A step takes the first event presented, keeps the parameters and the responses handed out, and changes the registers in
one of the ways of `RegisterChange`. -/
theorem step_registers {s t : State} (h : step s = .next t) :
    ∃ (b : Block s.par) (q : Ports s.par.cfgWidth) (new : List Response), RegisterChange s b new
      ∧ t = { s with block := b, ports := q, inbox := s.inbox.drop 1, outbox := s.outbox ++ new } := by
  cases step_cases h with
  | idle hi => exact ⟨_, s.ports, [], .kept _, by rw [hi, List.append_nil, List.drop_nil, ← hi]⟩
  | reset rest hi => exact ⟨_, s.ports, _, .reset rest hi, by simp [hi]⟩
  | configured q rest hi hd hp hpass => exact ⟨_, q.ports, _, .configured q rest hi hd hp hpass, by simp [hi]⟩
  | illegal q rest _ hi | nop q rest hi | notReady q rest _ _ hi | invalidThrottle q rest _ _ hi
  | encoded q rest _ _ hi | alreadyConfigured q rest hi | configurationError q rest _ hi =>
    exact ⟨_, q.ports, _, .kept _, by rw [hi]; rfl⟩

/-- While READY and with no reset first, a step leaves the registers. -/
theorem RegisterChange.eq_of_ready {s : State} {b : Block s.par} {new : List Response} (h : RegisterChange s b new)
    (hready : s.block.phase = .ready) (hno : ∀ e ∈ s.inbox, e ≠ .reset) : b = s.block := by
  cases h with
  | kept => rfl
  | reset rest hi => exact absurd rfl (hno .reset (by simp [hi]))
  | configured q rest hi hd hp => simp [hready] at hp

/-- Settles O44, by induction on the number of steps: a step leaves the registers, and what it leaves presented holds no
reset either. -/
theorem tableIsWriteOncePerReset : Obligations.TableIsWriteOncePerReset := by
  intro n
  induction n with
  | zero =>
    rintro s _ - - ⟨⟩
    exact ⟨s.ports, s.inbox, s.outbox, rfl⟩
  | succ n ih =>
    intro s t hready hno hrun
    obtain ⟨u, hstep, hrest⟩ := run_succ_inversion hrun
    obtain ⟨b, q, new, hchange, rfl⟩ := step_registers hstep
    obtain rfl := hchange.eq_of_ready hready hno
    have hno' : ∀ e ∈ s.inbox.drop 1, e ≠ .reset := fun e he => hno e (List.mem_of_mem_drop he)
    exact ih { s with ports := q, inbox := s.inbox.drop 1, outbox := s.outbox ++ new } t hready hno' hrest

/-! ### The form of a response -/

/-- A response without data has the form of R66 when its reason goes with its status. -/
theorem responseOk_of_noData (p : Params) {st : Status} {reason : BitVec 4}
    (hreason : reason ≠ 0#4 ↔ st = .configurationError) (hle : reason.toNat ≤ 8) :
    ResponseOk p ⟨st, reason, none, none⟩ :=
  ⟨hreason, hle, iff_of_true rfl rfl, fun _ => rfl, nofun⟩

/-- A table that meets R27 gives every well-formed frame a good buffer (R121 to R125). -/
theorem bufferOk_symbolsOf {p : Params} {b : Block p} {F : BitVec 16} (htable : TableOk p b)
    (hF : wellFormedFrame F = true) : BufferOk p F (symbolsOf b.lut F) := by
  obtain ⟨hone, hzero, hlt, hrange, hgmin, hgmax⟩ := htable
  have hl1 : b.t1l.toNat = b.period.toNat - b.t1h.toNat := by omega
  have hl0 : b.t0l.toNat = b.period.toNat - b.t0h.toNat := by omega
  have hpos : 0 < b.t1l.toNat := lt_of_lt_of_le p.minPhase_pos (hrange _ (by simp)).1
  rw [hl1, hl0] at hrange
  refine ⟨hF, symbolsOf_length _ _, b.period.toNat, b.t1h.toNat, b.t0h.toNat, b.tgap.toNat, hlt, by omega, hrange, hgmin,
    hgmax, fun i hi => ?_, symbolsOf_gap _ _⟩
  rw [symbolsOf_lut_data b F hi, hl1, hl0]

/-- The frame of a command passes the check of R105. -/
theorem wellFormedFrame_frameOfPayload (p : BitVec 12) : wellFormedFrame (frameOfPayload p) = true := by
  rw [wellFormedFrame, frameOfPayload_checksum, frameOfPayload_payload, beq_self_eq_true]

/-- The answer to an accepted command has the form of R66 when the table meets R27. -/
theorem responseOk_encoded {p : Params} {b : Block p} (htable : TableOk p b) (throttle : BitVec 11) (tlm : Bool) :
    ResponseOk p ⟨.ok, 0#4, some (frameOf throttle tlm), some (symbolsOf b.lut (frameOf throttle tlm))⟩ := by
  refine ⟨by simp, by simp, by simp, fun h => absurd rfl h, ?_⟩
  rintro _ _ ⟨⟩ ⟨⟩
  exact bufferOk_symbolsOf htable (wellFormedFrame_frameOfPayload _)

/-- Every response has the form of R66 once one good response is added. -/
theorem Inv.responses_concat {s : State} (h : Inv s) {r : Response} (hr : ResponseOk s.par r) :
    ∀ a ∈ s.outbox ++ [r], ResponseOk s.par a :=
  List.forall_mem_append.2 ⟨h.responses, List.forall_mem_singleton.2 hr⟩

/-- Answering a request with a good response, the registers kept, keeps the invariant. -/
theorem Inv.answer {s : State} (h : Inv s) (q : Ports s.par.cfgWidth) (rest : List (Event s.par.cfgWidth)) {r : Response}
    (hr : ResponseOk s.par r) : Inv { s with ports := q, inbox := rest, outbox := s.outbox ++ [r] } where
  config := h.config
  table := h.table
  responses := h.responses_concat hr

/-- Answering without data, the registers kept, keeps the invariant when the reason goes with the status. -/
theorem Inv.answer_noData {s : State} (h : Inv s) (q : Ports s.par.cfgWidth) (rest : List (Event s.par.cfgWidth))
    {st : Status} {reason : BitVec 4} (hreason : reason ≠ 0#4 ↔ st = .configurationError) (hle : reason.toNat ≤ 8) :
    Inv { s with ports := q, inbox := rest, outbox := s.outbox ++ [⟨st, reason, none, none⟩] } :=
  h.answer q rest (responseOk_of_noData s.par hreason hle)

theorem cfgReason_code_ne_zero (e : CfgReason) : e.code ≠ 0#4 := by
  cases e <;> decide

/-- Settles O51: only the reset and the register write of R88 change the registers, the former to UNCONFIGURED, the latter
to a table of R27; and each answer has the form of R66. -/
theorem stepKeepsInvariant : Obligations.StepKeepsInvariant := by
  intro s t hinv h
  cases step_cases h with
  | idle => exact hinv
  | reset rest => exact { config := nofun, table := nofun, responses := hinv.responses }
  | configured q rest _ _ _ hpass =>
    obtain ⟨hconfig, htable⟩ := configuredBlock_ok hpass
    exact { config := fun _ => hconfig
            table := fun _ => htable
            responses := hinv.responses_concat (responseOk_of_noData _ (by simp) (by simp)) }
  | encoded q rest thr tlm _ _ hp => exact hinv.answer _ _ (responseOk_encoded (hinv.table hp) _ _)
  | configurationError q rest e =>
    exact hinv.answer_noData _ _ (iff_of_true (cfgReason_code_ne_zero e) rfl) (cfgReason_code_range e).2
  | illegal | nop | notReady | invalidThrottle | alreadyConfigured => exact hinv.answer_noData _ _ (by simp) (by simp)

/-- Settles O50: the reset block is UNCONFIGURED and nothing has been answered. -/
theorem invariantHoldsAtReset : Obligations.InvariantHoldsAtReset where
  config := nofun
  table := nofun
  responses := nofun

end Sys2Proof.Machine
end

section
/-! PROOFS. 20_memory.md, 43_encode.md, 60_exceptions.md and 70_reset_and_hazards.md. What a single step does with the event
presented, which of the registers and ports an instruction reads, and what follows for short runs and for systems
(R171). -/

namespace Sys2Proof.Machine

/-! ### Codes and the state after reset -/

/-- Settles O35. -/
theorem statusAndReasonCodes : Obligations.StatusAndReasonCodes := by
  have hmax (st : Status) : st.code.toNat ≤ 5 := by cases st <;> decide
  exact ⟨rfl, rfl, rfl, rfl, rfl, rfl, hmax, rfl, rfl, rfl, rfl, rfl, rfl, rfl, rfl, rfl, rfl⟩

/-- Settles O11. -/
theorem resetStateIsUnconfigured : Obligations.ResetStateIsUnconfigured :=
  ⟨rfl, rfl, rfl, rfl, rfl, rfl⟩

/-- Settles O49. -/
theorem tableReadNeedsReady : Obligations.TableReadNeedsReady := by
  refine fun s k => ⟨fun hphase => ?_, fun hphase => withTable_ready hphase k⟩
  rw [withTable, hphase]

/-! ### One step -/

/-- Settles O7. -/
theorem stepRunsDecodedRequest : Obligations.StepRunsDecodedRequest :=
  fun _ _ _ _ hi hd => step_eq_exec hi hd

/-- Settles O10. -/
theorem idleStepChangesNothing : Obligations.IdleStepChangesNothing :=
  fun _ hi => step_idle hi

/-- Settles O9. -/
theorem resetEventClearsThePhase : Obligations.ResetEventClearsThePhase :=
  fun _ _ hi => ⟨_, step_reset hi, rfl, rfl⟩

/-- A reserved word is answered ILLEGAL_REQUEST on the ports of its request. -/
theorem step_illegal {s : State} {q : Request s.par.cfgWidth} {rest : List (Event s.par.cfgWidth)} {e : Reserved}
    (hi : s.inbox = .request q :: rest) (hd : decode s.par q.word = .error e) :
    step s = execIllegal (takeRequest s q.ports rest) :=
  (step_request hi).trans (serve_error (s := takeRequest s q.ports rest) hd)

/-- Settles O8: such a word is one the decoder rejects. -/
theorem reservedWordAnswersIllegalRequest : Obligations.ReservedWordAnswersIllegalRequest := by
  intro s w p rest hi hreserved
  obtain ⟨e, hd⟩ := decode_eq_error_iff.2 hreserved
  exact step_illegal hi hd

/-- Settles O12. -/
theorem everyStepAnswersNext : Obligations.EveryStepAnswersNext := by
  intro s
  obtain ⟨b, q, new, hstep, _⟩ := step_any_outbox s
  exact ⟨_, hstep s.outbox⟩

/-- Settles O13: `run_any_outbox` for the record of `s`. -/
theorem oneResponsePerRequestInOrder : Obligations.OneResponsePerRequestInOrder := by
  intro n s
  obtain ⟨b, q, new, hrun, hlength⟩ := run_any_outbox n s
  exact ⟨b, q, new, hrun s.outbox, hlength⟩

/-- Settles O25: `exec_any_outbox` for the record of `s`. -/
theorem frameOfEveryInstruction : Obligations.FrameOfEveryInstruction := by
  intro i s t h
  obtain ⟨b, r, hexec, hb⟩ := exec_any_outbox i s
  exact ⟨b, r, Host.Outcome.next.inj (h.symm.trans (hexec s.outbox)), hb⟩

/-- Settles O40: `step_error_inversion` shows what the step leaves. -/
theorem errorsChangeNoState : Obligations.ErrorsChangeNoState := by
  intro s t r h hout herr
  obtain ⟨_, _, _, _, _, _, _, rfl⟩ := step_error_inversion h hout herr
  exact ⟨_, _, _, rfl⟩

theorem ready_eq_one_iff (s : State) : ready s = 1#1 ↔ s.block.phase = .ready := by
  cases hphase : s.block.phase <;> simp [ready, hphase, Phase.code]

theorem ready_eq_zero_iff (s : State) : ready s = 0#1 ↔ s.block.phase = .unconfigured := by
  cases hphase : s.block.phase <;> simp [ready, hphase, Phase.code]

/-- Settles O43: of the three register changes the reset alone leaves READY and the write of R88 alone reaches it. -/
theorem phaseChangesOnlyByConfigureAndReset : Obligations.PhaseChangesOnlyByConfigureAndReset := by
  intro s t h
  obtain ⟨b, p, new, hchange, rfl⟩ := step_registers h
  refine ⟨fun hs ht => ?_, fun hs ht => ?_, ready_eq_one_iff _, ready_eq_zero_iff _⟩
  · cases hchange with
    | kept => exact nomatch hs.symm.trans ht
    | reset rest hi => exact ⟨rest, hi⟩
    | configured => exact nomatch ht
  · cases hchange with
    | kept => exact nomatch hs.symm.trans ht
    | reset => exact nomatch ht
    | configured q rest hi hd => exact ⟨q, rest, _, hi, hd, rfl, rfl⟩

/-- The status of ENCODE: the phase first, then the throttle. -/
theorem execEncode_status (thr : Nat) (tlm : Bool) (s : State) :
    ∃ (t : State) (r : Response), execEncode thr tlm s = .next t ∧ t.outbox = s.outbox ++ [r]
      ∧ (s.block.phase = .unconfigured → r.status = .notReady)
      ∧ (s.block.phase = .ready → 2047 < thr → r.status = .invalidThrottle)
      ∧ (s.block.phase = .ready → thr ≤ 2047 → r.status = .ok) := by
  cases hphase : s.block.phase with
  | unconfigured => exact ⟨_, _, execEncode_unconfigured hphase thr tlm, rfl, fun _ => rfl, nofun, nofun⟩
  | ready =>
    rcases Nat.lt_or_ge 2047 thr with hthr | hthr
    · exact ⟨_, _, execEncode_rejected hphase hthr tlm, rfl, nofun, fun _ _ => rfl, fun _ hle => absurd hthr hle.not_gt⟩
    · exact ⟨_, _, execEncode_accepted hphase hthr tlm, rfl, nofun, fun _ hgt => absurd hgt hthr.not_gt, fun _ _ => rfl⟩

/-- The status of CONFIGURE: the phase first, then the checks of R87. -/
theorem execConfigure_status (s : State) :
    ∃ (t : State) (r : Response), execConfigure s = .next t ∧ t.outbox = s.outbox ++ [r]
      ∧ (s.block.phase = .ready → r.status = .alreadyConfigured)
      ∧ (s.block.phase = .unconfigured → ¬ AcceptablePorts s.par s.ports → r.status = .configurationError)
      ∧ (s.block.phase = .unconfigured → AcceptablePorts s.par s.ports → r.status = .ok) := by
  cases hphase : s.block.phase with
  | ready => exact ⟨_, _, execConfigure_ready hphase, rfl, fun _ => rfl, nofun, nofun⟩
  | unconfigured =>
    rcases (firstFailure s.par (portRes s) (portRate s) (portDelay s)).eq_none_or_eq_some with hpass | ⟨e, hfail⟩
    · have hacceptable : AcceptablePorts s.par s.ports := (firstFailure_eq_none _ _ _ _).1 hpass
      exact ⟨_, _, execConfigure_accepted hphase hpass, rfl, nofun, fun _ hnot => absurd hacceptable hnot, fun _ _ => rfl⟩
    · have hnot : ¬ AcceptablePorts s.par s.ports := not_acceptable_of_firstFailure hfail
      exact ⟨_, _, execConfigure_failed hphase hfail, rfl, nofun, fun _ _ => rfl,
        fun _ hacceptable => absurd hacceptable hnot⟩

/-- Settles O38: the word is rejected or decoded to one of the three requests, each of which has its own statuses. -/
theorem statusPriority : Obligations.StatusPriority := by
  intro s w p rest hi
  cases hd : decode s.par w with
  | error e => exact ⟨_, _, step_illegal hi hd, rfl, fun _ => rfl, nofun, nofun, nofun⟩
  | ok i =>
    have hstep : step s = exec i (takeRequest s p rest) := step_eq_exec hi hd
    cases i with
    | nop => exact ⟨_, _, hstep, rfl, nofun, fun _ => rfl, nofun, nofun⟩
    | configure =>
      obtain ⟨t, r, hexec, hout, hstatus⟩ := execConfigure_status (takeRequest s p rest)
      exact ⟨t, r, hstep.trans hexec, hout, nofun, nofun, nofun, fun _ => hstatus⟩
    | encode thr tlm =>
      obtain ⟨t, r, hexec, hout, hstatus⟩ := execEncode_status thr tlm (takeRequest s p rest)
      refine ⟨t, r, hstep.trans hexec, hout, nofun, nofun, ?_, nofun⟩
      rintro _ _ ⟨⟩
      exact hstatus

/-! ### What an instruction reads -/

/-- The state `s` with other ports, other events presented and another record of responses: the registers and the parameters
stay. -/
abbrev withEnvironment (s : State) (q : Ports s.par.cfgWidth) (n : List (Event s.par.cfgWidth)) (o : List Response) :
    State := { s with ports := q, inbox := n, outbox := o }

/-- An instruction other than CONFIGURE keeps the registers and answers from them and the parameters alone. -/
theorem exec_any_environment {i : Instr} (hne : i ≠ .configure) (s : State) :
    ∃ r : Response, ∀ (q : Ports s.par.cfgWidth) (n : List (Event s.par.cfgWidth)) (o : List Response),
      exec i (withEnvironment s q n o) = .next (withEnvironment s q n (o ++ [r])) := by
  cases i with
  | nop => exact ⟨_, fun _ _ _ => rfl⟩
  | configure => exact absurd rfl hne
  | encode thr tlm =>
    cases hp : s.block.phase with
    | unconfigured =>
      exact ⟨_, fun q n o => execEncode_unconfigured (s := withEnvironment s q n o) hp thr tlm⟩
    | ready =>
      rcases Nat.lt_or_ge 2047 thr with ht | ht
      · exact ⟨_, fun q n o => execEncode_rejected (s := withEnvironment s q n o) hp ht tlm⟩
      · exact ⟨⟨.ok, 0#4, some _, some (symbolsOf s.block.lut _)⟩,
          fun q n o => execEncode_accepted (s := withEnvironment s q n o) hp ht tlm⟩

/-- A request word other than CONFIGURE's is answered from the registers and the parameters alone, which it keeps. -/
theorem step_any_environment {s : State} {w : Word} (hne : decode s.par w ≠ .ok .configure) :
    ∃ r : Response, ∀ (p q : Ports s.par.cfgWidth) (rest : List (Event s.par.cfgWidth)) (o : List Response),
      step (withEnvironment s q (.request { word := w, ports := p } :: rest) o)
        = .next (withEnvironment s p rest (o ++ [r])) := by
  cases hd : decode s.par w with
  | error e => exact ⟨_, fun p q rest o => step_illegal (s := withEnvironment s q (.request ⟨w, p⟩ :: rest) o) rfl hd⟩
  | ok i =>
    obtain ⟨r, hexec⟩ := exec_any_environment (i := i) (fun h => hne (hd.trans (congrArg _ h))) s
    exact ⟨r, fun p q rest o => (step_eq_exec (s := withEnvironment s q _ o) rfl hd).trans (hexec p rest o)⟩

/-- Settles O42: either step is that of `step_any_environment`. -/
theorem portsReadByConfigureAlone : Obligations.PortsReadByConfigureAlone := by
  intro s w p q rest hne
  obtain ⟨r, hstep⟩ := step_any_environment hne
  exact ⟨s.block, r, hstep p s.ports rest s.outbox, hstep q s.ports rest s.outbox⟩

/-- Settles O26: the answer to an accepted throttle is made from the table alone, and equal fields give equal tables. -/
theorem encodeReadsOnlyTheTable : Obligations.EncodeReadsOnlyTheTable := by
  intro s₁ s₂ thr tlm hp₁ hp₂ h1h h1l h0h h0l hgap
  rcases Nat.lt_or_ge 2047 thr with hthr | hthr
  · exact ⟨_, execEncode_rejected hp₁ hthr tlm, execEncode_rejected hp₂ hthr tlm⟩
  · have hlut : s₂.block.lut = s₁.block.lut := (lut_congr h1h h1l h0h h0l hgap).symm
    refine ⟨_, execEncode_accepted hp₁ hthr tlm, (execEncode_accepted hp₂ hthr tlm).trans ?_⟩
    rw [hlut]
    rfl

/-! ### Short runs -/

/-- Two steps, one after the other. -/
theorem run_two {s t u : State} (h₁ : step s = .next t) (h₂ : step t = .next u) :
    Host.Core.run Sys2Proof.core 2 s = .next u := by
  rw [run_succ_of_step h₁, run_succ_of_step h₂, run_zero]

/-- Settles O46: each ENCODE has one answer, whatever has been presented or handed out before. -/
theorem encodeRequestsCommute : Obligations.EncodeRequestsCommute := by
  intro s q₁ q₂ thr₁ thr₂ tlm₁ tlm₂ hd₁ hd₂
  obtain ⟨r₁, hstep₁⟩ := step_any_environment (s := s) (w := q₁.word) (by simp [hd₁])
  obtain ⟨r₂, hstep₂⟩ := step_any_environment (s := s) (w := q₂.word) (by simp [hd₂])
  refine ⟨r₁, r₂, _, _, run_two (hstep₁ q₁.ports s.ports [.request q₂] s.outbox) (hstep₂ q₂.ports q₁.ports [] _),
    run_two (hstep₂ q₂.ports s.ports [.request q₁] s.outbox) (hstep₁ q₁.ports q₂.ports [] _),
    List.append_assoc .., List.append_assoc .., ⟨_, _, _, rfl⟩, ⟨_, _, _, rfl⟩⟩

/-- A CONFIGURE presented to an UNCONFIGURED block on acceptable operands makes the register write of R88. -/
theorem step_configure_accepted {s : State} {p : Ports s.par.cfgWidth} {rest : List (Event s.par.cfgWidth)}
    (hphase : s.block.phase = .unconfigured) (hi : s.inbox = .request { word := 0x40000000#32, ports := p } :: rest)
    (hpass : firstFailure s.par p.resolutionHz.toNat p.bitRateHz.toNat p.postDelayUs.toNat = none) :
    step s = .next { s with
      block := configuredBlock s.par p hpass
      ports := p
      inbox := rest
      outbox := s.outbox ++ [⟨.ok, 0#4, none, none⟩] } :=
  (step_eq_exec hi (decode_eq_configure_iff.2 rfl)).trans
    (execConfigure_accepted (s := takeRequest s p rest) hphase hpass)

/-- An ENCODE with an accepted throttle presented to a READY block is answered from its table. -/
theorem step_encode_accepted {s : State} {q : Request s.par.cfgWidth} {rest : List (Event s.par.cfgWidth)} {thr : Nat}
    {tlm : Bool} (hphase : s.block.phase = .ready) (hi : s.inbox = .request q :: rest)
    (hd : decode s.par q.word = .ok (.encode thr tlm)) (hthr : thr ≤ 2047) :
    step s = .next { s with
      ports := q.ports
      inbox := rest
      outbox := s.outbox ++ [⟨.ok, 0#4, some (frameOf (throttleOf thr) tlm),
        some (symbolsOf s.block.lut (frameOf (throttleOf thr) tlm))⟩] } :=
  (step_eq_exec hi hd).trans (execEncode_accepted (s := takeRequest s q.ports rest) hphase hthr tlm)

/-- Settles O47: the second step finds the table that the first one wrote. -/
theorem encodeRightAfterConfigureReadsNewTable : Obligations.EncodeRightAfterConfigureReadsNewTable := by
  rintro s w p q rest thr tlm _ _ _ _ hphase hi hd hthr hacceptable rfl rfl rfl rfl
  have hpass := (firstFailure_eq_none _ _ _ _).2 hacceptable
  have hfirst := step_configure_accepted hphase hi hpass
  have hsecond := step_encode_accepted (s := { s with
      block := configuredBlock s.par p hpass
      ports := p
      inbox := .request { word := w, ports := q } :: rest
      outbox := s.outbox ++ [⟨.ok, 0#4, none, none⟩] }) rfl rfl hd hthr
  refine ⟨_, configuredBlock s.par p hpass, frameOf (throttleOf thr) tlm,
    symbolsOf (configuredBlock s.par p hpass).lut (frameOf (throttleOf thr) tlm), run_two hfirst hsecond, rfl, ?record,
    fun i hi => ?data, ?gap⟩
  case record => rw [List.append_assoc, List.singleton_append]
  case data =>
    rw [symbolsOf_lut_data _ _ hi, configuredBlock_t1h, configuredBlock_t1l, configuredBlock_t0h, configuredBlock_t0l]
    rfl
  case gap =>
    rw [symbolsOf_gap, lut_two, configuredBlock_tgap]
    rfl

/-- Settles O48: the reset leaves an UNCONFIGURED block, which the CONFIGURE finds. -/
theorem resetThenConfigureReconfigures : Obligations.ResetThenConfigureReconfigures := by
  intro s p rest hi hacceptable
  have hpass := (firstFailure_eq_none _ _ _ _).2 hacceptable
  have hsecond := step_configure_accepted
    (s := clearBlock (takeEvent s (.request { word := 0x40000000#32, ports := p } :: rest))) rfl rfl hpass
  exact ⟨_, run_two (step_reset hi) hsecond, rfl, rfl, rfl, rfl, configuredBlock_tgap hpass⟩

/-! ### Systems -/

/-- A step of a member of the system replaces its state (R171). -/
theorem stepInstance_next {sys : System} {n : Nat} {s t : State} (hn : sys[n]? = some s) (hstep : step s = .next t) :
    sys.stepInstance n = .next (sys.set n t) := by
  simp only [System.stepInstance, hn, hstep]

/-- Settles O52: the two steps replace the states of different members of the list. -/
theorem instancesAreIndependent : Obligations.InstancesAreIndependent := by
  intro sys n m hne hn hm
  obtain ⟨t, ht⟩ := everyStepAnswersNext sys[n]
  obtain ⟨u, hu⟩ := everyStepAnswersNext sys[m]
  have hsn : sys[n]? = some sys[n] := List.getElem?_eq_getElem hn
  have hsm : sys[m]? = some sys[m] := List.getElem?_eq_getElem hm
  refine ⟨sys.set n t, sys.set m u, (sys.set n t).set m u, stepInstance_next hsn ht, stepInstance_next hsm hu,
    fun k hk => List.getElem?_set_ne hk.symm, ⟨_, t, hsn, ht, List.getElem?_set_self hn⟩,
    stepInstance_next ((List.getElem?_set_ne hne).trans hsm) hu, ?_⟩
  rw [stepInstance_next ((List.getElem?_set_ne hne.symm).trans hsn) ht, List.set_comm _ _ hne.symm]

end Sys2Proof.Machine
end
